-- ==== Sys2Proof/Word.lean ====
section
/-! DEFINITION. The words of the access block: bytes, event words, decode keys, the identifier byte file and text. -/

namespace Sys2Proof

/-- An 8-bit value: a byte of the stream, a nibble value, a data register (10_state.md R22-R25). -/
abbrev Byte := BitVec 8

/-- The 10-bit input event word, kind in bits 9:8 and data in bits 7:0 (30_encoding.md R70). -/
abbrev EventWord := BitVec 10

/-- The 12-bit decode key, phase in bits 11:10 and the event word below it (30_encoding.md R72). -/
abbrev Key := BitVec 12

/-- Text of the sink and of the holder names; the spec gives it no character set (91_not_in_source.md N19). -/
abbrev Text := String

/-- The five identifier bytes in order of arrival, `b0` the first (10_state.md R23, 20_memory.md R53). -/
structure TagId where
  b0 : Byte
  b1 : Byte
  b2 : Byte
  b3 : Byte
  b4 : Byte
  deriving DecidableEq, Repr, Inhabited

end Sys2Proof
end

