-- ==== Sys2Proof/Config.lean ====
section
/-! DEFINITION. The build-time parameters of 00_scope.md R11-R16. They are constants of the hardware: no step changes them. -/

namespace Sys2Proof

/-- One entry of the authorization table (R11, 20_memory.md R50): the identifier is five bytes by its type (R16). -/
structure Entry where
  id : TagId
  name : Text
  deriving DecidableEq, Repr, Inhabited

/-- One implementation's parameters. `unlockTicks >= 1` (R13) is checked by `Config.wf`. -/
structure Config where
  /-- `P_TABLE`, its length is `P_N` (R11). -/
  table : List Entry
  /-- `P_UNLOCK_TICKS` (R13). -/
  unlockTicks : Nat
  /-- `P_TICK_HZ` (R12): OPEN, and no rule of the block's behaviour depends on it. The spec gives its rate no number type and no
  lower bound; a natural number, 0 among them and fractional rates not, is the model's choice (DESIGN CHOICE, log 20). -/
  tickHz : Nat
  /-- `P_INCOMPLETE_TEXT` (R14): OPEN, read by the sink alone. -/
  incompleteText : Text
  deriving DecidableEq, Repr, Inhabited

/-- `P_TABLE` of the chip after reset: not in the source (R11, D15), so nothing is known of it (log 3). -/
opaque Config.buildTable : List Entry

/-- `P_UNLOCK_TICKS - 1` of the chip after reset: any natural number (R13, D11; log 3). -/
opaque Config.buildUnlockTicksLessOne : Nat

/-- `P_TICK_HZ` of the chip after reset: OPEN (R12, D11; log 3), any natural number (log 20). -/
opaque Config.buildTickHz : Nat

/-- `P_INCOMPLETE_TEXT` of the chip after reset: OPEN (R14, D18; log 3). -/
opaque Config.buildIncompleteText : Text

/-- The configuration of the chip that `State.reset` describes: every parameter open but for `P_UNLOCK_TICKS >= 1`
(R13, R16). DESIGN CHOICE, log 3. -/
def Config.build : Config where
  table := Config.buildTable
  unlockTicks := Config.buildUnlockTicksLessOne + 1
  tickHz := Config.buildTickHz
  incompleteText := Config.buildIncompleteText

/-- The default of `P_UNLOCK_TICKS` for a tick rate: two seconds of ticks (R13), for the rates log 20 admits. -/
def Config.defaultUnlockTicks (tickHz : Nat) : Nat := 2 * tickHz

end Sys2Proof
end

