-- ==== Sys2Proof/Syntax.lean ====
section
/-! DEFINITION. The phases, events, instructions (the rows of opcode_table.json), result records and stimulus forms. -/

namespace Sys2Proof

/-- The control state (10_state.md R20). The code 0b11 has no constructor, as R20 and R75 ask. -/
inductive Phase where
  /-- 0b00, searching for a start byte. -/
  | hunt
  /-- 0b01, consuming the 12 frame characters. -/
  | collect
  /-- 0b10, the lock-release pulse is being held. -/
  | unlock
  deriving DecidableEq, Repr, Inhabited

/-- The four kinds of input event (30_encoding.md R70). EOS, TICK and RESET carry no data (R71). -/
inductive Event where
  | byte (b : Byte)
  | eos
  | tick
  | reset
  deriving DecidableEq, Repr

/-- The decode rows of spec/opcode_table.json, one constructor a row, in the table's priority order
(30_encoding.md R74). -/
inductive Instr where
  /-- RESET, 70_reset_and_hazards.md R270. -/
  | reset
  /-- HUNT.START, 40_frame_boundary.md R100. -/
  | huntStart
  /-- HUNT.NOISE, R101; `b` is the byte discarded. -/
  | huntNoise (b : Byte)
  /-- HUNT.EOS, R109. -/
  | huntEos
  /-- HUNT.TICK, R102. -/
  | huntTick
  /-- COLLECT.STOP_CR, R103. -/
  | collectStopCr
  /-- COLLECT.STOP_LF, R104. -/
  | collectStopLf
  /-- COLLECT.STOP_ETX, R105. -/
  | collectStopEtx
  /-- COLLECT.STOP_STX, R106. -/
  | collectStopStx
  /-- COLLECT.DIGIT, 41_hex_converter.md R120; `d` is key[3:0]. -/
  | collectDigit (d : BitVec 4)
  /-- COLLECT.ALPHA, R121; `a` is key[2:0]. -/
  | collectAlpha (a : BitVec 3)
  /-- COLLECT.OTHER, R122; `b` is the character. -/
  | collectOther (b : Byte)
  /-- COLLECT.EOS, 40_frame_boundary.md R107. -/
  | collectEos
  /-- COLLECT.TICK, R110. -/
  | collectTick
  /-- UNLOCK.BYTE, 45_pulse_sequencer.md R203; `b` is the byte offered. -/
  | unlockByte (b : Byte)
  /-- UNLOCK.EOS, R204. -/
  | unlockEos
  /-- UNLOCK.TICK, R201. -/
  | unlockTick
  /-- UNLOCK.TICK_LAST, R202. -/
  | unlockTickLast
  deriving DecidableEq, Repr

/-- A result record with the fields its kind carries (30_encoding.md R81, R82). Kinds 6 and 7 are reserved and have no
constructor (R83). -/
inductive Record where
  | startup
  | incomplete (cnt : BitVec 4)
  | cksumError (id : TagId) (rx computed : Byte)
  | granted (id : TagId) (rx computed : Byte) (idx : Nat)
  | denied (id : TagId) (rx computed : Byte)
  | unlockDone
  deriving DecidableEq, Repr

/-- A line of the stimulus syntax: the base forms of 30_encoding.md R84 and the pseudo-forms of R85. -/
inductive Stimulus where
  | rst
  | b (x : Byte)
  | eos
  | tick
  | hex (s : Text)
  | frame (s : Text)
  | ticks (n : Nat)
  deriving DecidableEq, Repr

end Sys2Proof
end

