-- ==== Sys2Proof/WellFormed.lean ====
section
/-! DEFINITION. Which configurations and instructions are well formed. -/

namespace Sys2Proof

/-- A configuration is well formed when the pulse has at least one tick (00_scope.md R16). That every identifier is five
bytes holds by the type `TagId`; duplicate identifiers are well formed (R16). -/
def Config.wf (c : Config) : Bool :=
  match c.unlockTicks with
  | 0 => false
  | _ + 1 => true

/-- The operand values each row of opcode_table.json admits: NOISE is every byte but 0x02 (R101), DIGIT 0..9 (R120),
ALPHA 1..6 (R121), OTHER the 236 bytes that are no stop byte, digit or letter (R122, R78). -/
def Instr.wf : Instr → Bool
  | .reset | .huntStart | .huntEos | .huntTick => true
  | .huntNoise b => b != 0x02#8
  | .collectStopCr | .collectStopLf | .collectStopEtx | .collectStopStx => true
  | .collectDigit d => d.ule 9#4
  | .collectAlpha a => a != 0#3 && a != 7#3
  | .collectOther b =>
      b != 0x0D#8 && b != 0x0A#8 && b != 0x03#8 && b != 0x02#8 &&
        !((0x30#8).ule b && b.ule 0x39#8) && !((0x41#8).ule b && b.ule 0x46#8)
  | .collectEos | .collectTick => true
  | .unlockByte _ | .unlockEos | .unlockTick | .unlockTickLast => true

/-- The condition on the state that tells the two UNLOCK tick rows apart (opcode_table.json `condition`, R73). -/
def Instr.timerOk (i : Instr) (utimer : Nat) : Bool :=
  match i with
  | .unlockTick => decide (1 < utimer)
  | .unlockTickLast => decide (utimer = 1)
  | .reset | .huntStart | .huntNoise _ | .huntEos | .huntTick | .collectStopCr | .collectStopLf | .collectStopEtx
  | .collectStopStx | .collectDigit _ | .collectAlpha _ | .collectOther _ | .collectEos | .collectTick
  | .unlockByte _ | .unlockEos => true

end Sys2Proof
end

