-- ==== Sys2Proof/Decode.lean ====
section
/-! DEFINITION. The encodings of 30_encoding.md: event words, decode keys, the opcode table and its decoder and encoder,
and the record word. -/

namespace Sys2Proof

/-! ## Constants of the source (00_scope.md R7, R8) -/

/-- `START_BYTE` (R7). -/
def startByte : Byte := 0x02#8

/-- `STOP_SET` (R8). -/
def stopSet : List Byte := [0x0D#8, 0x0A#8, 0x03#8, 0x02#8]

/-! ## Event words (R70, R71) -/

/-- The canonical word of an event (R71). -/
def encodeEvent : Event → EventWord
  | .byte b => 0#2 ++ b
  | .eos => 0x100#10
  | .tick => 0x200#10
  | .reset => 0x300#10

/-- Every one of the 1024 words is an event; the data bits of the last three kinds are ignored (R71). -/
def decodeEvent (w : EventWord) : Event :=
  match (w.extractLsb' 8 2).toNat with
  | 0 => .byte (w.extractLsb' 0 8)
  | 1 => .eos
  | 2 => .tick
  | _ => .reset

/-! ## Decode keys (R72) -/

/-- The two bits of a phase (10_state.md R20). -/
def Phase.bits : Phase → BitVec 2
  | .hunt => 0b00#2
  | .collect => 0b01#2
  | .unlock => 0b10#2

/-- The phase of a two-bit code; 0b11 is reserved (R75). -/
def Phase.ofBits (b : BitVec 2) : Option Phase :=
  match b.toNat with
  | 0 => some .hunt
  | 1 => some .collect
  | 2 => some .unlock
  | _ => none

/-- `key = {phase, ev}` (R72). -/
def decodeKey (p : Phase) (w : EventWord) : Key := p.bits ++ w

/-- The match of a row: `(key & mask) == match` (R73). -/
def keyFits (key mask pattern : Key) : Bool := key &&& mask == pattern

/-- Why a decode key selects no row. -/
inductive Undecodable where
  /-- Phase bits 0b11 on an event other than RESET (R72, R75; I2, I5): no state can hold that phase. -/
  | reservedPhase
  deriving DecidableEq, Repr

/-- The row that a key and the pulse timer select, tried in the table's priority order (R73, R74). A TICK in UNLOCK is
UNLOCK.TICK when `utimer > 1` and UNLOCK.TICK_LAST otherwise, as the listing of R189 has it; the table's own condition is
`utimer == 1`, and the two differ only at `utimer = 0`, which no reachable state has in UNLOCK (DEDUCED, log 5). -/
def decode (key : Key) (utimer : Nat) : Except Undecodable Instr :=
  if keyFits key 0x300#12 0x300#12 then .ok .reset
  else if keyFits key 0xFFF#12 0x002#12 then .ok .huntStart
  else if keyFits key 0xF00#12 0x000#12 then .ok (.huntNoise (key.extractLsb' 0 8))
  else if keyFits key 0xF00#12 0x100#12 then .ok .huntEos
  else if keyFits key 0xF00#12 0x200#12 then .ok .huntTick
  else if keyFits key 0xFFF#12 0x40D#12 then .ok .collectStopCr
  else if keyFits key 0xFFF#12 0x40A#12 then .ok .collectStopLf
  else if keyFits key 0xFFF#12 0x403#12 then .ok .collectStopEtx
  else if keyFits key 0xFFF#12 0x402#12 then .ok .collectStopStx
  else if keyFits key 0xFF0#12 0x430#12 && (key.extractLsb' 0 4).ule 9#4 then
    .ok (.collectDigit (key.extractLsb' 0 4))
  else if keyFits key 0xFF8#12 0x440#12 && (1#3).ule (key.extractLsb' 0 3) && (key.extractLsb' 0 3).ule 6#3 then
    .ok (.collectAlpha (key.extractLsb' 0 3))
  else if keyFits key 0xF00#12 0x400#12 then .ok (.collectOther (key.extractLsb' 0 8))
  else if keyFits key 0xF00#12 0x500#12 then .ok .collectEos
  else if keyFits key 0xF00#12 0x600#12 then .ok .collectTick
  else if keyFits key 0xF00#12 0x800#12 then .ok (.unlockByte (key.extractLsb' 0 8))
  else if keyFits key 0xF00#12 0x900#12 then .ok .unlockEos
  else if keyFits key 0xF00#12 0xA00#12 then
    if 1 < utimer then .ok .unlockTick else .ok .unlockTickLast
  else .error .reservedPhase

/-- The key of a well-formed instruction, its ignored bits zero (R71; log 18). -/
def encode : Instr → Key
  | .reset => 0x300#12
  | .huntStart => 0x002#12
  | .huntNoise b => 0x0#4 ++ b
  | .huntEos => 0x100#12
  | .huntTick => 0x200#12
  | .collectStopCr => 0x40D#12
  | .collectStopLf => 0x40A#12
  | .collectStopEtx => 0x403#12
  | .collectStopStx => 0x402#12
  | .collectDigit d => 0x43#8 ++ d
  | .collectAlpha a => 0b010001000#9 ++ a
  | .collectOther b => 0x4#4 ++ b
  | .collectEos => 0x500#12
  | .collectTick => 0x600#12
  | .unlockByte b => 0x8#4 ++ b
  | .unlockEos => 0x900#12
  | .unlockTick => 0xA00#12
  | .unlockTickLast => 0xA00#12

/-! ## The opcode table as data (R73, opcode_table.json) -/

/-- One row of opcode_table.json: the key bits it fixes, the range of one field of the key (`fieldMask` 0 where it has
none), and the range of `utimer` it asks for. -/
structure OpRow where
  mnemonic : String
  pattern : Key
  mask : Key
  fieldMask : Key := 0#12
  fieldMin : Key := 0#12
  fieldMax : Key := 0#12
  timerMin : Nat := 0
  timerMax : Option Nat := none
  deriving DecidableEq, Repr

/-- The 18 rows in increasing priority. -/
def opcodeTable : List OpRow := [
  ⟨"RESET", 0x300#12, 0x300#12, 0, 0, 0, 0, none⟩,
  ⟨"HUNT.START", 0x002#12, 0xFFF#12, 0, 0, 0, 0, none⟩,
  ⟨"HUNT.NOISE", 0x000#12, 0xF00#12, 0, 0, 0, 0, none⟩,
  ⟨"HUNT.EOS", 0x100#12, 0xF00#12, 0, 0, 0, 0, none⟩,
  ⟨"HUNT.TICK", 0x200#12, 0xF00#12, 0, 0, 0, 0, none⟩,
  ⟨"COLLECT.STOP_CR", 0x40D#12, 0xFFF#12, 0, 0, 0, 0, none⟩,
  ⟨"COLLECT.STOP_LF", 0x40A#12, 0xFFF#12, 0, 0, 0, 0, none⟩,
  ⟨"COLLECT.STOP_ETX", 0x403#12, 0xFFF#12, 0, 0, 0, 0, none⟩,
  ⟨"COLLECT.STOP_STX", 0x402#12, 0xFFF#12, 0, 0, 0, 0, none⟩,
  ⟨"COLLECT.DIGIT", 0x430#12, 0xFF0#12, 0x00F#12, 0, 9, 0, none⟩,
  ⟨"COLLECT.ALPHA", 0x440#12, 0xFF8#12, 0x007#12, 1, 6, 0, none⟩,
  ⟨"COLLECT.OTHER", 0x400#12, 0xF00#12, 0, 0, 0, 0, none⟩,
  ⟨"COLLECT.EOS", 0x500#12, 0xF00#12, 0, 0, 0, 0, none⟩,
  ⟨"COLLECT.TICK", 0x600#12, 0xF00#12, 0, 0, 0, 0, none⟩,
  ⟨"UNLOCK.BYTE", 0x800#12, 0xF00#12, 0, 0, 0, 0, none⟩,
  ⟨"UNLOCK.EOS", 0x900#12, 0xF00#12, 0, 0, 0, 0, none⟩,
  ⟨"UNLOCK.TICK", 0xA00#12, 0xF00#12, 0, 0, 0, 2, none⟩,
  ⟨"UNLOCK.TICK_LAST", 0xA00#12, 0xF00#12, 0, 0, 0, 1, some 1⟩]

/-- The row accepts the key and the timer (R73). -/
def rowSelects (row : OpRow) (key : Key) (utimer : Nat) : Bool :=
  keyFits key row.mask row.pattern
    && row.fieldMin.ule (key &&& row.fieldMask) && (key &&& row.fieldMask).ule row.fieldMax
    && decide (row.timerMin ≤ utimer) && (match row.timerMax with | none => true | some m => decide (utimer ≤ m))

/-- The first row, in increasing priority, that accepts the key and the timer (R73). -/
def selectRow (key : Key) (utimer : Nat) : Option OpRow :=
  opcodeTable.find? fun row => rowSelects row key utimer

/-- The mnemonic of an instruction in opcode_table.json. -/
def Instr.mnemonic : Instr → String
  | .reset => "RESET"
  | .huntStart => "HUNT.START"
  | .huntNoise _ => "HUNT.NOISE"
  | .huntEos => "HUNT.EOS"
  | .huntTick => "HUNT.TICK"
  | .collectStopCr => "COLLECT.STOP_CR"
  | .collectStopLf => "COLLECT.STOP_LF"
  | .collectStopEtx => "COLLECT.STOP_ETX"
  | .collectStopStx => "COLLECT.STOP_STX"
  | .collectDigit _ => "COLLECT.DIGIT"
  | .collectAlpha _ => "COLLECT.ALPHA"
  | .collectOther _ => "COLLECT.OTHER"
  | .collectEos => "COLLECT.EOS"
  | .collectTick => "COLLECT.TICK"
  | .unlockByte _ => "UNLOCK.BYTE"
  | .unlockEos => "UNLOCK.EOS"
  | .unlockTick => "UNLOCK.TICK"
  | .unlockTickLast => "UNLOCK.TICK_LAST"

/-- The timer that a bare table word is read with: the word 0xA00 belongs to both UNLOCK tick rows, and with this timer
it is the row of the lower priority number, UNLOCK.TICK (DESIGN CHOICE, log 7). -/
def tableTimer : Nat := 2

/-- The instruction of a word numbered as opcode_table.json numbers it: the key in bits 11:0, no bit above it. -/
def decodeTableWord (_nbits w : Nat) : Option Instr :=
  if w < 4096 then (decode (BitVec.ofNat 12 w) tableTimer).toOption else none

/-! ## Widths (00_scope.md R15) -/

/-- `UW`: the least width that holds `P_UNLOCK_TICKS`. -/
def timerWidth (ticks : Nat) : Nat := Nat.log2 ticks + 1

/-- `IW`: 1 when `P_N <= 2`, else `ceil(log2 P_N)`. -/
def indexWidth (n : Nat) : Nat := if n ≤ 2 then 1 else Nat.log2 (n - 1) + 1

/-! ## Identifier packing (20_memory.md R55) -/

/-- The 40-bit identifier, `id[0]` in bits 39:32 and `id[4]` in bits 7:0 (R55). -/
def packId (t : TagId) : BitVec 40 := t.b0 ++ t.b1 ++ t.b2 ++ t.b3 ++ t.b4

/-- The five bytes of a 40-bit identifier (R55). -/
def unpackId (w : BitVec 40) : TagId :=
  ⟨w.extractLsb' 32 8, w.extractLsb' 24 8, w.extractLsb' 16 8, w.extractLsb' 8 8, w.extractLsb' 0 8⟩

/-! ## The record word (R80-R83) -/

/-- The record kind code (R81). -/
def Record.kindCode : Record → BitVec 3
  | .startup => 0#3
  | .incomplete _ => 1#3
  | .cksumError _ _ _ => 2#3
  | .granted _ _ _ _ => 3#3
  | .denied _ _ _ => 4#3
  | .unlockDone => 5#3

/-- `sep`: this record ends a cycle (R80, R82). -/
def Record.sep : Record → Bool
  | .startup => false
  | .incomplete _ => true
  | .cksumError _ _ _ => true
  | .granted _ _ _ _ => false
  | .denied _ _ _ => true
  | .unlockDone => true

/-- The `cnt` field, 0 but on INCOMPLETE (R82). -/
def Record.cntField : Record → BitVec 4
  | .incomplete c => c
  | .startup | .cksumError _ _ _ | .granted _ _ _ _ | .denied _ _ _ | .unlockDone => 0#4

/-- The packed identifier field, 0 where the kind carries none (R82). -/
def Record.idField : Record → BitVec 40
  | .cksumError t _ _ | .granted t _ _ _ | .denied t _ _ => packId t
  | .startup | .incomplete _ | .unlockDone => 0#40

/-- The received-checksum field (R82). -/
def Record.rxField : Record → Byte
  | .cksumError _ rx _ | .granted _ rx _ _ | .denied _ rx _ => rx
  | .startup | .incomplete _ | .unlockDone => 0#8

/-- The computed-checksum field (R82). -/
def Record.calcField : Record → Byte
  | .cksumError _ _ c | .granted _ _ c _ | .denied _ _ c => c
  | .startup | .incomplete _ | .unlockDone => 0#8

/-- The table-index field, 0 but on GRANTED (R82). -/
def Record.idxField : Record → Nat
  | .granted _ _ _ i => i
  | .startup | .incomplete _ | .cksumError _ _ _ | .denied _ _ _ | .unlockDone => 0

/-- The record word of `64 + IW` bits (R80): idx, calc, rx, id, cnt, sep, kind from the top down. -/
def recordWord (iw : Nat) (r : Record) : BitVec (iw + 64) :=
  BitVec.ofNat iw r.idxField
    ++ (r.calcField ++ r.rxField ++ r.idField ++ r.cntField ++ BitVec.ofBool r.sep ++ r.kindCode : BitVec 64)

/-- Why the sink refuses a record word. -/
inductive RecordError where
  /-- Kind 6 or 7 (R83). -/
  | reservedKind
  /-- A known kind with a field set that R82 makes 0, or with the wrong `sep`: not a word `recordWord` builds, so no word of the
  block (DESIGN CHOICE, log 11). -/
  | notABlockWord
  deriving DecidableEq, Repr

/-- The record a word's kind and fields spell, before the check that the block can build the word. -/
def readRecordWord (iw : Nat) (w : BitVec (iw + 64)) : Option Record :=
  let t := unpackId (w.extractLsb' 8 40)
  let rx := w.extractLsb' 48 8
  let computed := w.extractLsb' 56 8
  match (w.extractLsb' 0 3).toNat with
  | 0 => some .startup
  | 1 => some (.incomplete (w.extractLsb' 4 4))
  | 2 => some (.cksumError t rx computed)
  | 3 => some (.granted t rx computed (w.toNat / 2 ^ 64))
  | 4 => some (.denied t rx computed)
  | 5 => some .unlockDone
  | _ => none

/-- The record of a word, refusing the reserved kinds by name (R83). A word whose zero fields and `sep` are right is read whatever
its other fields hold, also where the block never sends them: CKSUM_ERROR with `rx = calc`, GRANTED or DENIED with `rx != calc`,
INCOMPLETE with `cnt` 12..15. The spec does not say what a sink does with these (DESIGN CHOICE, log 11). -/
def decodeRecordWord (iw : Nat) (w : BitVec (iw + 64)) : Except RecordError Record :=
  match readRecordWord iw w with
  | none => .error .reservedKind
  | some r => if recordWord iw r = w then .ok r else .error .notABlockWord

end Sys2Proof
end

