-- ==== Sys2Proof/Machine/State.lean ====
section
/-! DEFINITION. The state of the block (10_state.md), the reasons a step can stop, the state after reset and the state
before it. -/

namespace Sys2Proof.Machine

/-- The block's registers (R20-R26), the outputs of the last step (R36, R37), the events still offered, and the build-time
parameters, the table ROM among them. -/
structure State where
  /-- The control state (R20). -/
  phase : Phase
  /-- Frame characters consumed since the start byte (R21). -/
  cnt : BitVec 4
  /-- The high nibble waiting for its partner, 8 bits (R22). -/
  hi : Byte
  /-- The identifier byte file (R23). -/
  id : TagId
  /-- The computed-checksum accumulator (R24). -/
  acc : Byte
  /-- The received checksum (R25). -/
  rx : Byte
  /-- Ticks left in the pulse (R26), a natural number as R15 allows (log 6). -/
  utimer : Nat
  /-- `accepted` of the last step (R36): `some true` consumed, `some false` refused, `none` when the step took no event
  (log 2). -/
  accepted : Option Bool
  /-- `rec` of the last step (R36); at the cycle level the registered record port (R37, R39). -/
  record : Option Record
  /-- The event words the host still offers, oldest first (R84; the MODEL's own field, log 1). -/
  input : List EventWord
  /-- The build-time parameters and the table ROM (R11-R14, R50); no step changes them (the MODEL's own field, log 3). -/
  cfg : Config
  deriving DecidableEq, Repr, Inhabited

/-- The block has no trap and never stops with an error (60_exceptions.md R246, R251), so there is no fault: nobody raises
one, which is safe because every event of every state has the effect its rule gives (log 21). -/
inductive Fault where
  deriving DecidableEq, Repr

/-- The reasons a step has no meaning. -/
inductive Refusal where
  /-- An instruction not modelled yet; no arm of `exec` raises it. Safe: the model stops. -/
  | notModelled (mnemonic : String)
  /-- Raised by `step` when `P_UNLOCK_TICKS = 0`: a model refuses a configuration that is not well formed
  (00_scope.md R16, I10, I16). Safe: no chip has it. -/
  | illFormedConfig
  /-- Raised by `step` on a decode key with phase 0b11 (R75, I2, I5), which no `State` can hold, so never. Safe. -/
  | reservedPhase
  deriving DecidableEq, Repr

/-- The machine right after a RESET event (R40, R270, R271): the registers of R40, the STARTUP record of that step on the
record port, no event offered (log 1), and the open parameters of `Config.build` (log 3). -/
def State.reset : State where
  phase := .hunt
  cnt := 0#4
  hi := 0x00#8
  id := ⟨0x00#8, 0x00#8, 0x00#8, 0x00#8, 0x00#8⟩
  acc := 0x00#8
  rx := 0x00#8
  utimer := 0
  accepted := some true
  record := some .startup
  input := []
  cfg := Config.build

/-- The unspecified registers and outputs before the first RESET, one draw a power-up (R41, I1): any value of `State`. That
leaves out phase 0b11 and record words that no `Record` has, such as those of kinds 6 and 7 (DESIGN CHOICE, log 8). -/
opaque State.powerOnDraw : Nat → State

/-- The `n`-th power-up: every register and output is unspecified (R41), the parameters are built in (R275), and nothing has
been offered yet. That the cycles between power-up and the first RESET then run the ordinary step on this one draw is the
model's choice (DESIGN CHOICE, log 8). -/
def State.powerOn (n : Nat) : State :=
  { State.powerOnDraw n with input := [], cfg := Config.build }

end Sys2Proof.Machine
end

