-- ==== Sys2Proof/Machine/Flags.lean ====
section
/-! DEFINITION. The two conditions of 10_state.md R28, computed inside the completion step and never stored: `valid` and
`hit`. The block keeps no other flag. -/

namespace Sys2Proof.Machine

/-- `valid = (b6 == acc)`, an 8-bit equality (42_checksum.md R142). -/
def validFlag (b6 acc : Byte) : Bool := b6 == acc

/-- `match_i` of one entry: equality of the packed 40-bit identifiers (43_lookup_arbiter.md R160). -/
def matchFlag (e : Entry) (t : TagId) : Bool := packId e.id == packId t

/-- `hit`: some entry matches; false for the empty table (R161). -/
def hitFlag (table : List Entry) (t : TagId) : Bool := table.any fun e => matchFlag e t

end Sys2Proof.Machine
end

