-- ==== Sys2Proof/Machine/Operands.lean ====
section
/-! DEFINITION. The operands of the block: the nibble value of a character (41_hex_converter.md R120-R122), byte assembly
(R125), the identifier byte file, and the checksum fold (42_checksum.md). -/

namespace Sys2Proof.Machine

/-! ## Character conversion -/

/-- The byte of a COLLECT.DIGIT row: 0x30 plus the field (R120). -/
def digitByte (d : BitVec 4) : Byte := 0x3#4 ++ d

/-- `v = b - 0x30` (R120). -/
def digitValue (d : BitVec 4) : Byte := digitByte d - 0x30#8

/-- The byte of a COLLECT.ALPHA row: 0x40 plus the field (R121). -/
def alphaByte (a : BitVec 3) : Byte := 0b01000#5 ++ a

/-- `v = b - 0x37` (R121). -/
def alphaValue (a : BitVec 3) : Byte := alphaByte a - 0x37#8

/-- `v = b`, the full code unconverted (R122). -/
def otherValue (b : Byte) : Byte := b

/-! ## Byte assembly -/

/-- `assemble(hi, v) = ((hi << 4) | v) mod 2^8` (R125). -/
def assemble (hi v : Byte) : Byte := (hi <<< 4) ||| v

/-- `cnt[0]`: the next character is a low nibble (R127). -/
def lowPosition (cnt : BitVec 4) : Bool := cnt.getLsbD 0

/-- `j = cnt >> 1`, the index of the byte being assembled (R21, R124). -/
def byteIndex (cnt : BitVec 4) : Nat := (cnt >>> 1).toNat

/-! ## The identifier byte file (10_state.md R23) -/

/-- The five bytes in order of arrival (20_memory.md R53). -/
def idBytes (t : TagId) : List Byte := [t.b0, t.b1, t.b2, t.b3, t.b4]

/-- `id[j]` for `j` in 0..4. -/
def idGet (t : TagId) (j : Fin 5) : Byte :=
  match j with
  | 0 => t.b0
  | 1 => t.b1
  | 2 => t.b2
  | 3 => t.b3
  | 4 => t.b4

/-- `id[j] <- b`. -/
def idSet (t : TagId) (j : Fin 5) (b : Byte) : TagId :=
  match j with
  | 0 => { t with b0 := b }
  | 1 => { t with b1 := b }
  | 2 => { t with b2 := b }
  | 3 => { t with b3 := b }
  | 4 => { t with b4 := b }

/-! ## The checksum (42_checksum.md) -/

/-- The generator: `acc ^ byte` (R140). -/
def checksumStep (acc byte : Byte) : Byte := acc ^^^ byte

/-- The fold of the first `n` identifier bytes from 0 (R143, R145; 10_state.md R30). -/
def checksumUpTo (t : TagId) (n : Nat) : Byte := ((idBytes t).take n).foldl checksumStep 0x00#8

/-- `reduce(id, xor, 0)` over all five bytes (R143). -/
def checksumOf (t : TagId) : Byte := (idBytes t).foldl checksumStep 0x00#8

end Sys2Proof.Machine
end

