-- ==== Sys2Proof/Machine/Ops.lean ====
section
/-! DEFINITION. The shared operations of the meanings: the outputs of a step, the table ROM and its arbiter, the end of a
frame, the pulse, and the host's offers. The block takes no exception and returns from none (60_exceptions.md R246, R248):
its outcomes are the records these operations emit. -/

namespace Sys2Proof.Machine

/-! ## Outputs (10_state.md R35-R37) -/

/-- The event is consumed and the step emits no record. -/
def State.quiet (s : State) : State := { s with accepted := some true, record := none }

/-- The event is consumed and the step emits `r` (44_cycle_controller.md R180). -/
def State.emit (r : Record) (s : State) : State := { s with accepted := some true, record := some r }

/-- `accepted <- 0`: the event is refused and nothing else changes (45_pulse_sequencer.md R203, R204). -/
def State.decline (s : State) : State := { s with accepted := some false, record := none }

/-- No event in this step: the state holds and no record is valid (R37, R38; log 2). -/
def State.hold (s : State) : State := { s with accepted := none, record := none }

/-- `in_ready = (phase != UNLOCK)` (R35). -/
def State.inReady (s : State) : Bool := s.phase != .unlock

/-- `lock_out = (phase == UNLOCK)` (R35). -/
def State.lockOut (s : State) : Bool := s.phase == .unlock

/-- `status_out = (phase == UNLOCK)` (R35). -/
def State.statusOut (s : State) : Bool := s.phase == .unlock

/-- The output of one event-level step (R36). -/
structure StepOut where
  accepted : Option Bool
  record : Option Record
  inReady : Bool
  lockOut : Bool
  statusOut : Bool
  deriving DecidableEq, Repr

/-- The output tuple of the step that led to `s`; the levels are those of the state after the step (R36). -/
def State.out (s : State) : StepOut := ⟨s.accepted, s.record, s.inReady, s.lockOut, s.statusOut⟩

/-- `rec_valid` (R37, R39). -/
def State.recValid (s : State) : Bool := s.record.isSome

/-- `rec_word` (R37, R39), with the index width of the machine's table (R15); the spec gives no value while `rec_valid` is
0, and neither does the model (log 13). -/
def State.recWord (s : State) : Option (BitVec (indexWidth s.cfg.table.length + 64)) :=
  s.record.map (recordWord (indexWidth s.cfg.table.length))

/-! ## The table ROM and its arbiter (20_memory.md R50-R52, 43_lookup_arbiter.md) -/

/-- `TableRead(i)`; no rule performs it for `i >= P_N` (R51), and there it answers `none`. -/
def State.tableRead (s : State) (i : Nat) : Option Entry := s.cfg.table[i]?

/-- The arbiter: the least index whose entry matches (R160-R162). -/
def lookup (table : List Entry) (t : TagId) : Option Nat := table.findIdx? fun e => matchFlag e t

/-! ## The end of a frame -/

/-- `phase <- HUNT; cnt <- 0` (40_frame_boundary.md R103-R107, 44_cycle_controller.md R182, R184). -/
def State.toHunt (s : State) : State := { s with phase := .hunt, cnt := 0#4 }

/-- `emit INCOMPLETE(cnt=cnt, sep=1); phase <- HUNT; cnt <- 0` (40_frame_boundary.md R103-R107; 60_exceptions.md R241). -/
def endIncomplete (s : State) : State := (s.emit (.incomplete s.cnt)).toHunt

/-! ## The pulse (45_pulse_sequencer.md) -/

/-- `phase <- UNLOCK; cnt <- 0; utimer <- P_UNLOCK_TICKS` (44_cycle_controller.md R183, R200). -/
def startPulse (s : State) : State := { s with phase := .unlock, cnt := 0#4, utimer := s.cfg.unlockTicks }

/-- `utimer <- utimer - 1` (R201). -/
def countTick (s : State) : State := { s with utimer := s.utimer - 1 }

/-- `utimer <- 0; phase <- HUNT` (R202). -/
def endPulse (s : State) : State := { s with utimer := 0, phase := .hunt }

/-! ## Reset (70_reset_and_hazards.md R270) -/

/-- The register values of 10_state.md R40. -/
def clearRegisters (s : State) : State :=
  { s with
    phase := .hunt
    cnt := 0#4
    hi := 0x00#8
    id := ⟨0x00#8, 0x00#8, 0x00#8, 0x00#8, 0x00#8⟩
    acc := 0x00#8
    rx := 0x00#8
    utimer := 0 }

/-! ## The host's offers (30_encoding.md R84) -/

/-- The next event word the host offers, and the state that has taken it off the list. -/
def State.takeOffer (s : State) : Option (EventWord × State) :=
  match s.input with
  | [] => none
  | ev :: rest => some (ev, { s with input := rest })

/-- The row that an event word selects in a state (R72, R73). -/
def State.decodeOffer (s : State) (ev : EventWord) : Except Undecodable Instr :=
  decode (decodeKey s.phase ev) s.utimer

end Sys2Proof.Machine
end

