-- ==== Sys2Proof/Machine/FrameBoundary.lean ====
section
/-! DEFINITION. The frame-boundary detector (40_frame_boundary.md): the meanings of the HUNT rows and of the COLLECT rows that
end a frame or wait. -/

namespace Sys2Proof.Machine

/-- HUNT.START: `phase <- COLLECT; cnt <- 0; acc <- 0` (R100, 42_checksum.md R145). -/
def execHuntStart (s : State) : Host.Outcome State Fault Refusal :=
  .next { s.quiet with phase := .collect, cnt := 0#4, acc := 0x00#8 }

/-- HUNT.NOISE: the byte is consumed and discarded (R101). -/
def execHuntNoise (_b : Byte) (s : State) : Host.Outcome State Fault Refusal := .next s.quiet

/-- HUNT.EOS: `emit INCOMPLETE(cnt=0, sep=1)` (R109). -/
def execHuntEos (s : State) : Host.Outcome State Fault Refusal := .next (s.emit (.incomplete 0#4))

/-- HUNT.TICK: nothing changes (R102). -/
def execHuntTick (s : State) : Host.Outcome State Fault Refusal := .next s.quiet

/-- COLLECT.STOP_CR (R103). -/
def execCollectStopCr (s : State) : Host.Outcome State Fault Refusal := .next (endIncomplete s)

/-- COLLECT.STOP_LF (R104). -/
def execCollectStopLf (s : State) : Host.Outcome State Fault Refusal := .next (endIncomplete s)

/-- COLLECT.STOP_ETX (R105). -/
def execCollectStopEtx (s : State) : Host.Outcome State Fault Refusal := .next (endIncomplete s)

/-- COLLECT.STOP_STX (R106): the 0x02 is consumed and opens no frame (R108). -/
def execCollectStopStx (s : State) : Host.Outcome State Fault Refusal := .next (endIncomplete s)

/-- COLLECT.EOS (R107). -/
def execCollectEos (s : State) : Host.Outcome State Fault Refusal := .next (endIncomplete s)

/-- COLLECT.TICK: a partial frame waits (R110). -/
def execCollectTick (s : State) : Host.Outcome State Fault Refusal := .next s.quiet

end Sys2Proof.Machine
end

