-- ==== Sys2Proof/Machine/CycleController.lean ====
section
/-! DEFINITION. The completion step of the cycle controller (44_cycle_controller.md R181-R184). `rx` is already written when
these run. -/

namespace Sys2Proof.Machine

/-- Checksum invalid: CKSUM_ERROR, no lookup, no actuation (R182). -/
def completeInvalid (b6 : Byte) (s : State) : State := (s.emit (.cksumError s.id b6 s.acc)).toHunt

/-- Checksum valid and entry `idx` selected: GRANTED, the pulse starts (R183). -/
def completeGranted (b6 : Byte) (idx : Nat) (s : State) : State :=
  startPulse (s.emit (.granted s.id b6 s.acc idx))

/-- Checksum valid and no entry: DENIED (R184). -/
def completeDenied (b6 : Byte) (s : State) : State := (s.emit (.denied s.id b6 s.acc)).toHunt

/-- The completion step: the validator first, then the arbiter (R181; 60_exceptions.md R247(b)). -/
def completeFrame (b6 : Byte) (s : State) : State :=
  if validFlag b6 s.acc then
    match lookup s.cfg.table s.id with
    | some idx => completeGranted b6 idx s
    | none => completeDenied b6 s
  else completeInvalid b6 s

end Sys2Proof.Machine
end

