-- ==== Sys2Proof/Machine/HexConverter.lean ====
section
/-! DEFINITION. The ASCII-hex to binary converter (41_hex_converter.md): the character step and the meanings of
COLLECT.DIGIT, COLLECT.ALPHA and COLLECT.OTHER. -/

namespace Sys2Proof.Machine

/-- High-nibble position: `hi <- v; cnt <- cnt + 1` (R123). -/
def highNibble (v : Byte) (s : State) : State := { s.quiet with hi := v, cnt := s.cnt + 1#4 }

/-- `id[j] <- byte; acc <- acc ^ byte; cnt <- cnt + 1` (R124, 42_checksum.md R140). -/
def storeIdByte (j : Fin 5) (byte : Byte) (s : State) : State :=
  { s.quiet with id := idSet s.id j byte, acc := checksumStep s.acc byte, cnt := s.cnt + 1#4 }

/-- Low-nibble position (R124): an identifier byte for `j < 5`, else the checksum byte, which is not folded into `acc`
(42_checksum.md R141) and completes the frame. `j > 5` is outside R30 and follows the listing of R189 (DEDUCED, log 5). -/
def lowNibble (v : Byte) (s : State) : State :=
  if h : byteIndex s.cnt < 5 then storeIdByte ⟨byteIndex s.cnt, h⟩ (assemble s.hi v) s
  else completeFrame (assemble s.hi v) { s with rx := assemble s.hi v }

/-- The character step, by the genuine parity of `cnt` (R127, R128). -/
def charStep (v : Byte) (s : State) : State :=
  if lowPosition s.cnt then lowNibble v s else highNibble v s

/-- COLLECT.DIGIT (R120). -/
def execCollectDigit (d : BitVec 4) (s : State) : Host.Outcome State Fault Refusal :=
  .next (charStep (digitValue d) s)

/-- COLLECT.ALPHA (R121). -/
def execCollectAlpha (a : BitVec 3) (s : State) : Host.Outcome State Fault Refusal :=
  .next (charStep (alphaValue a) s)

/-- COLLECT.OTHER (R122): passed through unconverted, a known defect the spec keeps. -/
def execCollectOther (b : Byte) (s : State) : Host.Outcome State Fault Refusal :=
  .next (charStep (otherValue b) s)

end Sys2Proof.Machine
end

