-- ==== Sys2Proof/Machine/PulseSequencer.lean ====
section
/-! DEFINITION. The lock-release pulse sequencer (45_pulse_sequencer.md): the meanings of the UNLOCK rows. -/

namespace Sys2Proof.Machine

/-- UNLOCK.BYTE: `accepted <- 0`, no register changes (R203). -/
def execUnlockByte (_b : Byte) (s : State) : Host.Outcome State Fault Refusal := .next s.decline

/-- UNLOCK.EOS: `accepted <- 0`, no register changes (R204). -/
def execUnlockEos (s : State) : Host.Outcome State Fault Refusal := .next s.decline

/-- UNLOCK.TICK: `utimer <- utimer - 1` (R201). -/
def execUnlockTick (s : State) : Host.Outcome State Fault Refusal := .next (countTick s.quiet)

/-- UNLOCK.TICK_LAST: `utimer <- 0; phase <- HUNT; emit UNLOCK_DONE(sep=1)` (R202). -/
def execUnlockTickLast (s : State) : Host.Outcome State Fault Refusal := .next (endPulse (s.emit .unlockDone))

end Sys2Proof.Machine
end

