-- ==== Sys2Proof/Machine/Reset.lean ====
section
/-! DEFINITION. The RESET event (70_reset_and_hazards.md R270-R274). -/

namespace Sys2Proof.Machine

/-- RESET: the registers of 10_state.md R40 and the STARTUP record, from any phase; a pulse or a partial frame in progress
ends without a record of its own (R270-R273). -/
def execReset (s : State) : Host.Outcome State Fault Refusal := .next ((clearRegisters s).emit .startup)

end Sys2Proof.Machine
end

