-- ==== Sys2Proof/Machine/Dispatch.lean ====
section
/-! DEFINITION. One arm per row of spec/opcode_table.json. -/

namespace Sys2Proof.Machine

def exec (i : Instr) (s : State) : Host.Outcome State Fault Refusal :=
  match i with
  | .reset => Sys2Proof.Machine.execReset s
  | .huntStart => Sys2Proof.Machine.execHuntStart s
  | .huntNoise b => Sys2Proof.Machine.execHuntNoise b s
  | .huntEos => Sys2Proof.Machine.execHuntEos s
  | .huntTick => Sys2Proof.Machine.execHuntTick s
  | .collectStopCr => Sys2Proof.Machine.execCollectStopCr s
  | .collectStopLf => Sys2Proof.Machine.execCollectStopLf s
  | .collectStopEtx => Sys2Proof.Machine.execCollectStopEtx s
  | .collectStopStx => Sys2Proof.Machine.execCollectStopStx s
  | .collectDigit d => Sys2Proof.Machine.execCollectDigit d s
  | .collectAlpha a => Sys2Proof.Machine.execCollectAlpha a s
  | .collectOther b => Sys2Proof.Machine.execCollectOther b s
  | .collectEos => Sys2Proof.Machine.execCollectEos s
  | .collectTick => Sys2Proof.Machine.execCollectTick s
  | .unlockByte b => Sys2Proof.Machine.execUnlockByte b s
  | .unlockEos => Sys2Proof.Machine.execUnlockEos s
  | .unlockTick => Sys2Proof.Machine.execUnlockTick s
  | .unlockTickLast => Sys2Proof.Machine.execUnlockTickLast s

end Sys2Proof.Machine
end

