-- ==== Sys2Proof/Machine/Placement.lean ====
section
/-! DEFINITION. How a table word is placed where the next step takes its event (log 7): the phase bits of the key go to
`phase`, the event bits in front of the host's offers. -/

namespace Sys2Proof.Machine

/-- The phase and timer that the row of a key asks for: RESET asks for none (its row ignores the phase, R72), and the word
0xA00 is read as UNLOCK.TICK, whose row needs `utimer > 1`. -/
def State.forRow (s : State) (p : Phase) (ev : EventWord) : State :=
  match decodeEvent ev with
  | .reset => s
  | .tick =>
    if p = .unlock ∧ s.utimer ≤ 1 then { s with phase := p, utimer := tableTimer } else { s with phase := p }
  | .byte _ | .eos => { s with phase := p }

/-- The state whose next step takes the event of the table word `w` in the phase of `w`. A word that is no key, or a key of
the reserved phase other than RESET, is no instruction: nothing is offered then, and the next step holds. -/
def State.placeWord (s : State) (w : Nat) : State :=
  let key := BitVec.ofNat 12 w
  let ev : EventWord := key.extractLsb' 0 10
  if w < 4096 then
    match Phase.ofBits (key.extractLsb' 10 2) with
    | some p => { s.forRow p ev with input := ev :: s.input }
    | none => if decodeEvent ev = .reset then { s with input := ev :: s.input } else { s with input := [] }
  else { s with input := [] }

end Sys2Proof.Machine
end

