-- ==== Sys2Proof/Machine/Step.lean ====
section
/-! DEFINITION. One event-level step (00_scope.md R17, 44_cycle_controller.md R189), and the host's placement of a word. -/

namespace Sys2Proof.Machine

/-- Refuse a configuration that is not well formed (R16); hold when the host offers no event (R38); otherwise take one event,
select its row and run it. -/
def step (s : State) : Host.Outcome State Fault Refusal :=
  if s.cfg.wf then
    match s.takeOffer with
    | none => .next s.hold
    | some (ev, s') =>
      match s.decodeOffer ev with
      | .ok i => exec i s'
      | .error .reservedPhase => .refused .reservedPhase
  else .refused .illFormedConfig

/-- `s` with the instruction of a table word offered next (log 7). -/
def State.withFetchWord (s : State) (_nbits w : Nat) : State := s.placeWord w

end Sys2Proof.Machine
end

