-- ==== Sys2Proof/Machine/CycleLevel.lean ====
section
/-! DEFINITION. The cycle-level mapping of ports and clocks onto events (10_state.md R33-R39, 70_reset_and_hazards.md R274,
R291). -/

namespace Sys2Proof.Machine

/-- The input ports in one clock cycle (R33, R34). -/
structure Ports where
  rst : Bool
  inValid : Bool
  inData : Byte
  inEos : Bool
  tick : Bool
  deriving DecidableEq, Repr

/-- The output ports in one clock cycle (R35, R37). -/
structure OutPorts where
  inReady : Bool
  lockOut : Bool
  statusOut : Bool
  recValid : Bool
  deriving DecidableEq, Repr

/-- The one effective event of a clock cycle: RESET, then BYTE, then EOS (both outside UNLOCK), then TICK (in UNLOCK), else
none (R38, 60_exceptions.md R247). -/
def selectEvent (p : Phase) (ports : Ports) : Option Event :=
  if ports.rst then some .reset
  else if ports.inValid && p != .unlock then some (.byte ports.inData)
  else if ports.inEos && p != .unlock then some .eos
  else if ports.tick && p == .unlock then some .tick
  else none

/-- The clock edge: the event-level step of the selected event, or a step with no event (R38). -/
def clockEdge (ports : Ports) (s : State) : Host.Outcome State Fault Refusal :=
  step { s with input := (selectEvent s.phase ports).toList.map encodeEvent }

/-- The output ports during a clock cycle that begins in state `s`: the levels decoded from the `phase` register and the
registered record of the previous cycle's event (R39). -/
def State.outPorts (s : State) : OutPorts := ⟨s.inReady, s.lockOut, s.statusOut, s.recValid⟩

/-- The duty of the byte source in one clock cycle: no `in_eos` with an accepted byte (60_exceptions.md R252,
70_reset_and_hazards.md R287). -/
def Ports.keepsDuty (ports : Ports) (s : State) : Bool := !(ports.inEos && ports.inValid && s.inReady)

end Sys2Proof.Machine
end

