-- ==== Sys2Proof/Machine/HostModel.lean ====
section
/-! DEFINITION. A host over clock cycles and what it owes the block (60_exceptions.md R252, 70_reset_and_hazards.md R275). The host
is outside the block: the step enforces none of this, and a claim that needs a duty takes it as a hypothesis (log 22). -/

namespace Sys2Proof.Machine

/-- What the host does in one clock cycle: it drives the input ports, and its sink takes the record that is valid in that cycle
or does not (R252). It has no way to read or write a register or the table. -/
structure HostMove where
  ports : Ports
  takesRecord : Bool
  deriving DecidableEq, Repr

/-- The duties of one cycle: no `in_eos` with an accepted byte, and a valid record is taken (R252). Any byte may be offered at
any time, and one that is not taken may be offered again or not. -/
def HostMove.allowed (m : HostMove) (s : State) : Bool := m.ports.keepsDuty s && (m.takesRecord || !s.recValid)

/-- The state at the start of each clock cycle, from `s` in cycle 0. A step that has no next state leaves the state as it is;
a well-formed configuration has none (log 22). Started in `State.powerOn`, the cycles before the first `rst` run the ordinary
rules on the draw, where the spec leaves every register and output unspecified (DESIGN CHOICE, log 8). -/
def cycles (moves : Nat → HostMove) (s : State) : Nat → State
  | 0 => s
  | n + 1 =>
    match clockEdge (moves n).ports (cycles moves s n) with
    | .next t => t
    | .fault _ | .refused _ => cycles moves s n

/-- The records that are valid in the cycles before `n` (R37, R39). -/
def recordsShown (moves : Nat → HostMove) (s : State) : Nat → List Record
  | 0 => []
  | n + 1 => recordsShown moves s n ++ (cycles moves s n).record.toList

/-- The records that the sink takes in the cycles before `n`. -/
def recordsTaken (moves : Nat → HostMove) (s : State) : Nat → List Record
  | 0 => []
  | n + 1 =>
    recordsTaken moves s n ++ (if (moves n).takesRecord then (cycles moves s n).record.toList else [])

/-- The byte source and the sink keep their duties in every cycle (R252). -/
def hostMovesAllowed (moves : Nat → HostMove) (s : State) : Prop := ∀ n, (moves n).allowed (cycles moves s n) = true

/-- The duty of the time base: ticks keep coming (R252; 45_pulse_sequencer.md R208). -/
def timeBaseKeepsTicking (moves : Nat → HostMove) : Prop := ∀ n, ∃ m, n ≤ m ∧ (moves m).ports.tick = true

/-- The duty of the reset source: `rst` at some clock edge after power-up, which is before cycle 0 (R252; 10_state.md R41). -/
def resetAfterPowerUp (moves : Nat → HostMove) : Prop := ∃ n, (moves n).ports.rst = true

/-- All that the host owes the block, from a power-up in state `s` (R252). -/
def hostKeepsDuties (moves : Nat → HostMove) (s : State) : Prop :=
  hostMovesAllowed moves s ∧ timeBaseKeepsTicking moves ∧ resetAfterPowerUp moves

end Sys2Proof.Machine
end

