-- ==== Sys2Proof/Machine/Sink.lean ====
section
/-! DEFINITION. The contract of the diagnostic sink (46_diagnostic_sink.md R220-R231). It is outside the block and changes
nothing in it: pure functions of a record and of the build-time parameters. -/

namespace Sys2Proof.Machine

/-- Why the sink refuses. -/
inductive SinkRefusal where
  /-- The word is refused as a record (30_encoding.md R83). -/
  | badWord (e : RecordError)
  /-- A GRANTED record whose index is no table entry; the block emits none (20_memory.md R51; log 11). -/
  | noSuchEntry
  deriving DecidableEq, Repr

/-- An uppercase hex digit. -/
def hexDigit (n : BitVec 4) : Char :=
  if n.ule 9#4 then Char.ofNat (0x30 + n.toNat) else Char.ofNat (0x37 + n.toNat)

/-- Two hex digits of a byte, zero padded (R222, R223). -/
def hexByte (b : Byte) : Text := String.ofList [hexDigit (b.extractLsb' 4 4), hexDigit (b.extractLsb' 0 4)]

/-- The ten digits of an identifier, from `id[0]` (R222). -/
def hexId (t : TagId) : Text := hexByte t.b0 ++ hexByte t.b1 ++ hexByte t.b2 ++ hexByte t.b3 ++ hexByte t.b4

/-- A natural number in decimal, no padding (R224). -/
def decimal (n : Nat) : Text := String.ofList (Nat.toDigits 10 n)

/-- The tag line (R222). -/
def tagLine (t : TagId) : Text := "Tag read: " ++ hexId t

/-- The checksum line: the received checksum, and whether it equals the computed one (R223). R223 gives the ending by the
comparison and by the kind, which agree on every record of the block; on a record where they contradict each other the
comparison decides (DESIGN CHOICE, log 11). -/
def checksumLine (rx computed : Byte) : Text :=
  "Checksum: " ++ hexByte rx ++ (if rx = computed then " -- passed." else " -- error.")

/-- The authorized line, with the 1-based index (R224). -/
def authorizedLine (idx : Nat) (name : Text) : Text :=
  "Authorized tag ID " ++ decimal (idx + 1) ++ ": unlocking for " ++ name

/-- The lines of a record before its separator (R221-R225, R227, R229, R230). -/
def recordLines (c : Config) : Record → Except SinkRefusal (List Text)
  | .startup => .ok ["RFID reader starting up"]
  | .incomplete _ => .ok [c.incompleteText]
  | .cksumError t rx computed => .ok [tagLine t, checksumLine rx computed]
  | .granted t rx computed idx =>
    match c.table[idx]? with
    | some e => .ok [tagLine t, checksumLine rx computed, authorizedLine idx e.name]
    | none => .error .noSuchEntry
  | .denied t rx computed => .ok [tagLine t, checksumLine rx computed, "Tag not authorized"]
  | .unlockDone => .ok []

/-- The lines of a record with the blank separator of `sep = 1` (R226, R231). -/
def sinkLines (c : Config) (r : Record) : Except SinkRefusal (List Text) :=
  match recordLines c r with
  | .ok lines => .ok (if r.sep then lines ++ [""] else lines)
  | .error e => .error e

/-- Every line ends with one line feed (R228). -/
def linesText (lines : List Text) : Text := lines.foldr (fun l rest => l ++ "\n" ++ rest) ""

/-- What the sink writes for a list of records, in order (R220). -/
def sinkText (c : Config) : List Record → Except SinkRefusal Text
  | [] => .ok ""
  | r :: rest =>
    match sinkLines c r with
    | .error e => .error e
    | .ok lines =>
      match sinkText c rest with
      | .error e => .error e
      | .ok text => .ok (linesText lines ++ text)

/-- What the sink does with a record word: the reserved kinds are refused (30_encoding.md R83). -/
def sinkWord (c : Config) (w : BitVec (indexWidth c.table.length + 64)) : Except SinkRefusal (List Text) :=
  match decodeRecordWord (indexWidth c.table.length) w with
  | .ok r => sinkLines c r
  | .error e => .error (.badWord e)

end Sys2Proof.Machine
end

