-- ==== Sys2Proof/Machine/Stimulus.lean ====
section
/-! DEFINITION. The stimulus syntax and its runner (30_encoding.md R84, R85), and the frame that spells an identifier (R76,
41_hex_converter.md R126). -/

namespace Sys2Proof.Machine

/-- The event word of a character, by its code (R85; the codes are ASCII, R10). -/
def charEvent (c : Char) : EventWord := encodeEvent (.byte (BitVec.ofNat 8 c.toNat))

/-- The events of a stimulus line (R84, R85). -/
def expandStimulus : Stimulus → List EventWord
  | .rst => [encodeEvent .reset]
  | .b x => [encodeEvent (.byte x)]
  | .eos => [encodeEvent .eos]
  | .tick => [encodeEvent .tick]
  | .hex s => s.toList.map charEvent
  | .frame s => encodeEvent (.byte startByte) :: s.toList.map charEvent
  | .ticks n => List.replicate n (encodeEvent .tick)

/-- Offer one event: the step that takes it (R84). -/
def offer (ev : EventWord) (s : State) : Host.Outcome State Fault Refusal := step { s with input := [ev] }

/-- The runner: each event offered once, in order, with the output of each step (R84). A refused event is lost. -/
def play : List EventWord → State → Host.Outcome (State × List StepOut) Fault Refusal
  | [], s => .next (s, [])
  | ev :: rest, s =>
    match offer ev s with
    | .next s' =>
      match play rest s' with
      | .next (t, outs) => .next (t, s'.out :: outs)
      | .fault r => .fault r
      | .refused r => .refused r
    | .fault r => .fault r
    | .refused r => .refused r

/-- The records of a run, in the order of their steps (20_memory.md R61). -/
def recordsOf (outs : List StepOut) : List Record := outs.filterMap StepOut.record

/-! ## Frames -/

/-- The uppercase hex character of a nibble (R10). -/
def hexCharByte (n : BitVec 4) : Byte := if n.ule 9#4 then 0x3#4 ++ n else 0x37#8 + (0x0#4 ++ n)

/-- The two hex characters of a byte, high nibble first (20_memory.md R54). -/
def hexPair (b : Byte) : List Byte := [hexCharByte (b.extractLsb' 4 4), hexCharByte (b.extractLsb' 0 4)]

/-- The 13 bytes of the frame that carries identifier `t` and checksum byte `c` (R76). -/
def frameBytes (t : TagId) (c : Byte) : List Byte :=
  startByte :: ((idBytes t).flatMap hexPair ++ hexPair c)

/-- The BYTE events of that frame. -/
def frameEvents (t : TagId) (c : Byte) : List EventWord := (frameBytes t c).map fun b => encodeEvent (.byte b)

end Sys2Proof.Machine
end

