-- ==== Sys2Proof/Safety.lean ====
section
/-! DEFINITION. What a good state and a safe run are, in the words the statements use. -/

namespace Sys2Proof.Machine

/-- The invariants of 10_state.md R30. The last clause of COLLECT is R30's second sentence: `acc` is the fold of the
identifier bytes assembled so far, of which there are `cnt >> 1`. -/
def State.Inv (s : State) : Prop :=
  match s.phase with
  | .hunt => s.cnt = 0#4 ∧ s.utimer = 0
  | .collect => s.cnt ≤ 11#4 ∧ s.utimer = 0 ∧ s.acc = checksumUpTo s.id (byteIndex s.cnt)
  | .unlock => s.cnt = 0#4 ∧ 1 ≤ s.utimer ∧ s.utimer ≤ s.cfg.unlockTicks

/-- The event neither opens a frame nor resets the block (the inputs of 40_frame_boundary.md R112). -/
def opensNoFrame (ev : EventWord) : Bool :=
  decide (decodeEvent ev ≠ .byte startByte) && decide (decodeEvent ev ≠ .reset)

/-- The event is no RESET. -/
def noReset (ev : EventWord) : Bool := decide (decodeEvent ev ≠ .reset)

/-- The event is a TICK. -/
def isTick (ev : EventWord) : Bool := decide (decodeEvent ev = .tick)

/-- The event is an EOS. -/
def isEos (ev : EventWord) : Bool := decide (decodeEvent ev = .eos)

/-- The output holds the lock and reports nothing (45_pulse_sequencer.md R205). -/
def holdsLock (o : StepOut) : Bool := o.lockOut && o.statusOut && !o.inReady && o.record.isNone

/-- A state whose host offers `ev` next. -/
def State.offers (s : State) (ev : EventWord) : Prop := s.input.head? = some ev

end Sys2Proof.Machine
end

