-- ==== Sys2Proof/Certificates/Slice0/Obligations.lean ====
section
/-! DEFINITION. The statements for the provers. Each per-instruction equation gives the whole next state as an update of the
old one, so it is also the instruction's frame: every register, every output, the host's offers and the table that the
update does not name are unchanged. -/

open Sys2Proof Sys2Proof.Machine

/-! ## Words used by the statements -/

/-- The nibble value of a COLLECT character row, written from the rules: the digit, ten more than 'A', or the code itself
(R120, R121, R122). -/
def Sys2Proof.Machine.frameCharValue : Instr → Option Byte
  | .collectDigit d => some (BitVec.ofNat 8 d.toNat)
  | .collectAlpha a => some (BitVec.ofNat 8 (9 + a.toNat))
  | .collectOther b => some b
  | .reset | .huntStart | .huntNoise _ | .huntEos | .huntTick | .collectStopCr | .collectStopLf | .collectStopEtx
  | .collectStopStx | .collectEos | .collectTick | .unlockByte _ | .unlockEos | .unlockTick | .unlockTickLast => none

/-- The byte of two nibble values, written from R125 with numbers: `((hi << 4) | v) mod 2^8`. -/
def Sys2Proof.Machine.pairByte (hi v : Byte) : Byte := BitVec.ofNat 8 ((hi.toNat <<< 4 ||| v.toNat) % 2 ^ 8)

/-! ## Reset -/

/-- R270: the RESET row, any phase and any data bits, and what it leaves from every state. -/
def Obligations.ResetClearsEveryRegisterFromAnyState : Prop :=
  (∀ (key : Key) (u : Nat), key &&& 0x300#12 = 0x300#12 → decode key u = .ok .reset) ∧
  ∀ s : State, exec .reset s = .next
    { phase := .hunt, cnt := 0#4, hi := 0#8, id := ⟨0#8, 0#8, 0#8, 0#8, 0#8⟩, acc := 0#8, rx := 0#8, utimer := 0,
      accepted := some true, record := some .startup, input := s.input, cfg := s.cfg }

/-- R40 with R270 and R41: whatever the power-up left, one RESET event leads to the reset state, and its outputs are
`in_ready = 1`, `lock_out = 0`, `status_out = 0`. That the offers are then empty is the model's choice (log 1). -/
def Obligations.ResetAfterPowerOnGivesResetState : Prop :=
  (∀ n : Nat, step { State.powerOn n with input := [0x300#10] } = .next State.reset) ∧
  State.reset.inReady = true ∧ State.reset.lockOut = false ∧ State.reset.statusOut = false

/-- R271: the RESET step and no other puts STARTUP on the record port; its `sep` is 0 and the sink prints its one line. -/
def Obligations.StartupComesOnlyFromReset : Prop :=
  (∀ (s t : State) (ev : EventWord), s.offers ev → step s = .next t →
    (t.record = some .startup ↔ decodeEvent ev = .reset)) ∧
  Record.startup.sep = false ∧ ∀ c : Config, sinkLines c .startup = .ok ["RFID reader starting up"]

/-! ## Frame-boundary detector -/

/-- R100; the last clause is its "a start byte in HUNT is the only way into COLLECT". -/
def Obligations.HuntStartOpensFrame : Prop :=
  (∀ u : Nat, decode 0x002#12 u = .ok .huntStart) ∧
  (∀ s : State, s.phase = .hunt → exec .huntStart s = .next
    { s with phase := .collect, cnt := 0#4, acc := 0#8, accepted := some true, record := none }) ∧
  ∀ (s t : State) (ev : EventWord), s.offers ev → step s = .next t → s.phase ≠ .collect → t.phase = .collect →
    s.phase = .hunt ∧ decodeEvent ev = .byte 0x02#8

/-- R101: any byte but 0x02 is consumed and discarded. -/
def Obligations.HuntNoiseIsDiscarded : Prop :=
  ∀ b : Byte, b ≠ 0x02#8 → (∀ u : Nat, decode (0x0#4 ++ b) u = .ok (.huntNoise b)) ∧
    ∀ s : State, s.phase = .hunt →
      exec (.huntNoise b) s = .next { s with accepted := some true, record := none }

/-- R102 and R110: a TICK outside UNLOCK, with any data bits, changes no register. -/
def Obligations.TickOutsidePulseChangesNothing : Prop :=
  (∀ (d : Byte) (u : Nat), decode (0x2#4 ++ d) u = .ok .huntTick ∧ decode (0x6#4 ++ d) u = .ok .collectTick) ∧
  (∀ s : State, s.phase = .hunt → exec .huntTick s = .next { s with accepted := some true, record := none }) ∧
  (∀ s : State, s.phase = .collect → exec .collectTick s = .next { s with accepted := some true, record := none })

/-- R109. -/
def Obligations.HuntEosReportsIncompleteZero : Prop :=
  (∀ (d : Byte) (u : Nat), decode (0x1#4 ++ d) u = .ok .huntEos) ∧
  ∀ s : State, s.phase = .hunt →
    exec .huntEos s = .next { s with accepted := some true, record := some (.incomplete 0#4) }

/-- R103 to R106: the four stop bytes. -/
def Obligations.StopByteEndsFrameIncomplete : Prop :=
  (∀ u : Nat, decode 0x40D#12 u = .ok .collectStopCr ∧ decode 0x40A#12 u = .ok .collectStopLf ∧
    decode 0x403#12 u = .ok .collectStopEtx ∧ decode 0x402#12 u = .ok .collectStopStx) ∧
  ∀ s : State, s.phase = .collect → ∀ i ∈ [Instr.collectStopCr, .collectStopLf, .collectStopEtx, .collectStopStx],
    exec i s = .next { s with
      phase := .hunt, cnt := 0#4, accepted := some true, record := some (.incomplete s.cnt) }

/-- R107. -/
def Obligations.CollectEosEndsFrameIncomplete : Prop :=
  (∀ (d : Byte) (u : Nat), decode (0x5#4 ++ d) u = .ok .collectEos) ∧
  ∀ s : State, s.phase = .collect → exec .collectEos s = .next
    { s with phase := .hunt, cnt := 0#4, accepted := some true, record := some (.incomplete s.cnt) }

/-- R78: in COLLECT the stop bytes, the digits, the letters and the 236 others, disjoint and covering all 256. -/
def Obligations.ByteClassesInCollect : Prop :=
  (∀ (b : Byte) (u : Nat), ∃ i, decode (decodeKey .collect (encodeEvent (.byte b))) u = .ok i ∧
    (b ∈ stopSet → i ∈ [Instr.collectStopCr, .collectStopLf, .collectStopEtx, .collectStopStx]) ∧
    (0x30 ≤ b.toNat ∧ b.toNat ≤ 0x39 → ∃ d, i = .collectDigit d ∧ d.toNat = b.toNat - 0x30) ∧
    (0x41 ≤ b.toNat ∧ b.toNat ≤ 0x46 → ∃ a, i = .collectAlpha a ∧ a.toNat = b.toNat - 0x40) ∧
    (b ∉ stopSet → ¬(0x30 ≤ b.toNat ∧ b.toNat ≤ 0x39) → ¬(0x41 ≤ b.toNat ∧ b.toNat ≤ 0x46) → i = .collectOther b)) ∧
  ((List.range 256).filter fun n => decide (BitVec.ofNat 8 n ∉ stopSet) && !(decide (0x30 ≤ n) && decide (n ≤ 0x39))
    && !(decide (0x41 ≤ n) && decide (n ≤ 0x46))).length = 236

/-- R112: from HUNT, events that hold neither a start byte nor a RESET leave the block in HUNT with its registers as they
were, and report one INCOMPLETE for each EOS and nothing else. -/
def Obligations.NoFrameWithoutStartByte : Prop :=
  ∀ (evs : List EventWord) (s : State), s.cfg.wf = true → s.phase = .hunt → evs.all opensNoFrame = true →
    ∃ t outs, play evs s = .next (t, outs) ∧ t.phase = .hunt ∧ t.cnt = s.cnt ∧ t.hi = s.hi ∧ t.id = s.id ∧
      t.acc = s.acc ∧ t.rx = s.rx ∧ t.utimer = s.utimer ∧
      recordsOf outs = List.replicate (evs.countP isEos) (.incomplete 0#4)

/-- R281 (and R108, R282): the start byte of a frame that meets a partial frame ends that one, is consumed, and the whole
frame is lost. -/
def Obligations.FrameAfterStaleFrameIsLost : Prop :=
  ∀ (s : State) (t : TagId) (c : Byte), s.cfg.wf = true → s.phase = .collect →
    ∃ s' outs, play (frameEvents t c) s = .next (s', outs) ∧ s'.phase = .hunt ∧ s'.id = s.id ∧ s'.acc = s.acc ∧
      recordsOf outs = [.incomplete s.cnt]

/-! ## Hex converter, checksum, arbiter and cycle controller -/

/-- R123, for the three character rows: an even position latches the high nibble. -/
def Obligations.EvenCharacterLatchesHighNibble : Prop :=
  ∀ (i : Instr) (v : Byte) (s : State), frameCharValue i = some v → s.phase = .collect → s.cnt.toNat ≤ 10 →
    s.cnt.toNat % 2 = 0 →
    exec i s = .next { s with hi := v, cnt := s.cnt + 1#4, accepted := some true, record := none }

/-- R124 for `j < 5` with R125 and R140, for the three character rows: an odd position stores an identifier byte and folds
it into `acc`. -/
def Obligations.OddCharacterStoresIdentifierByte : Prop :=
  ∀ (i : Instr) (v : Byte) (j : Fin 5) (s : State), frameCharValue i = some v → s.phase = .collect →
    s.cnt.toNat = 2 * j.val + 1 →
    exec i s = .next { s with
      id := idSet s.id j (pairByte s.hi v), acc := s.acc ^^^ pairByte s.hi v, cnt := s.cnt + 1#4,
      accepted := some true, record := none }

/-- R23: the identifier byte file reads back what was written and keeps the other bytes. -/
def Obligations.IdentifierByteFileReadAfterWrite : Prop :=
  ∀ (t : TagId) (j k : Fin 5) (b : Byte), idGet (idSet t j b) k = if k = j then b else idGet t k

/-- R182, for the three character rows: the 12th character with a wrong checksum. The table is not consulted. -/
def Obligations.WrongChecksumReportsErrorWithoutActuation : Prop :=
  ∀ (i : Instr) (v : Byte) (s : State), frameCharValue i = some v → s.phase = .collect → s.cnt = 11#4 →
    pairByte s.hi v ≠ s.acc →
    exec i s = .next { s with
      phase := .hunt, cnt := 0#4, rx := pairByte s.hi v, accepted := some true,
      record := some (.cksumError s.id (pairByte s.hi v) s.acc) }

/-- R183 with R162, for the three character rows: the 12th character with a right checksum and `idx` the least index whose
entry has the identifier. -/
def Obligations.MatchingFrameIsGranted : Prop :=
  ∀ (i : Instr) (v : Byte) (s : State) (idx : Nat) (e : Entry), frameCharValue i = some v → s.phase = .collect →
    s.cnt = 11#4 → pairByte s.hi v = s.acc → s.tableRead idx = some e → e.id = s.id →
    (∀ j < idx, ∀ e', s.tableRead j = some e' → e'.id ≠ s.id) →
    exec i s = .next { s with
      phase := .unlock, cnt := 0#4, rx := pairByte s.hi v, utimer := s.cfg.unlockTicks, accepted := some true,
      record := some (.granted s.id (pairByte s.hi v) s.acc idx) }

/-- R184, for the three character rows: the 12th character with a right checksum and no entry with the identifier. -/
def Obligations.UnlistedFrameIsDenied : Prop :=
  ∀ (i : Instr) (v : Byte) (s : State), frameCharValue i = some v → s.phase = .collect → s.cnt = 11#4 →
    pairByte s.hi v = s.acc → (∀ j e, s.tableRead j = some e → e.id ≠ s.id) →
    exec i s = .next { s with
      phase := .hunt, cnt := 0#4, rx := pairByte s.hi v, accepted := some true,
      record := some (.denied s.id (pairByte s.hi v) s.acc) }

/-- R125: the two nibble halves of an assembled byte, and `16 * hi + v` for two hex characters. -/
def Obligations.AssembledByteNibbles : Prop :=
  ∀ hi v : Byte, assemble hi v = pairByte hi v ∧
    (assemble hi v).extractLsb' 4 4 = hi.extractLsb' 0 4 ||| v.extractLsb' 4 4 ∧
    (assemble hi v).extractLsb' 0 4 = v.extractLsb' 0 4 ∧
    (hi.toNat ≤ 15 → v.toNat ≤ 15 → (assemble hi v).toNat = 16 * hi.toNat + v.toNat)

/-- R143: at the 12th character `acc` is the XOR of the five bytes in order, and no permutation of the bytes changes that
value. -/
def Obligations.ChecksumIsOrderFreeXorFold : Prop :=
  (∀ s : State, s.Inv → s.phase = .collect → s.cnt = 11#4 →
    s.acc = ((((0#8 ^^^ s.id.b0) ^^^ s.id.b1) ^^^ s.id.b2) ^^^ s.id.b3) ^^^ s.id.b4) ∧
  ∀ t t' : TagId, (idBytes t).Perm (idBytes t') → checksumOf t = checksumOf t'

/-- R161 and R162: `hit` says that some entry has the identifier, and the index is the least such one. -/
def Obligations.LookupSelectsFirstMatch : Prop :=
  ∀ (table : List Entry) (t : TagId),
    (hitFlag table t = true ↔ ∃ e ∈ table, e.id = t) ∧ (hitFlag table t = (lookup table t).isSome) ∧
    ∀ i, lookup table t = some i ↔
      (∃ e, table[i]? = some e ∧ e.id = t) ∧ ∀ j < i, ∀ e, table[j]? = some e → e.id ≠ t

/-- R164: with an empty table no step grants, and the 12th character of a checksum-valid frame is denied. The second clause
names no phase: that `exec` gives a row its effect in any phase is the model's choice (log 17). -/
def Obligations.EmptyTableNeverGrants : Prop :=
  ∀ s : State, s.cfg.table = [] →
    (∀ t, step s = .next t → ∀ d rx c i, t.record ≠ some (.granted d rx c i)) ∧
    (∀ (i : Instr) (v : Byte), frameCharValue i = some v → s.cnt = 11#4 → pairByte s.hi v = s.acc →
      ∃ t, exec i s = .next t ∧ t.record = some (.denied s.id s.acc s.acc) ∧ t.phase = .hunt)

/-- R126: the frame that spells an identifier and its checksum, from any HUNT state, decodes to that identifier with
`rx = acc = ` the checksum, and is granted or denied by the table alone. -/
def Obligations.FrameRoundTripDecodesIdentifier : Prop :=
  ∀ (t : TagId) (s : State), s.cfg.wf = true → s.phase = .hunt →
    ∃ s' outs, play (frameEvents t (checksumOf t)) s = .next (s', outs) ∧ s'.id = t ∧ s'.rx = checksumOf t ∧
      s'.acc = checksumOf t ∧ validFlag s'.rx s'.acc = true ∧
      (∀ idx, lookup s.cfg.table t = some idx → s'.phase = .unlock ∧ s'.utimer = s.cfg.unlockTicks ∧
        recordsOf outs = [.granted t (checksumOf t) (checksumOf t) idx]) ∧
      (lookup s.cfg.table t = none → s'.phase = .hunt ∧
        recordsOf outs = [.denied t (checksumOf t) (checksumOf t)])

/-- R182, R185, R242 over a whole frame: any other checksum byte gives one CKSUM_ERROR with the decoded identifier and both
checksums, whatever the table holds, and the lock is off after every step. -/
def Obligations.FrameWithWrongChecksumIsAnError : Prop :=
  ∀ (t : TagId) (c : Byte) (s : State), s.cfg.wf = true → s.phase = .hunt → c ≠ checksumOf t →
    ∃ s' outs, play (frameEvents t c) s = .next (s', outs) ∧ s'.phase = .hunt ∧ s'.id = t ∧ s'.rx = c ∧
      recordsOf outs = [.cksumError t c (checksumOf t)] ∧ ∀ o ∈ outs, o.lockOut = false

/-- R144: a valid frame changed in exactly one identifier byte, its checksum byte kept, is checksum-invalid. -/
def Obligations.ChangedIdentifierByteIsDetected : Prop :=
  ∀ (t : TagId) (j : Fin 5) (b : Byte) (s : State), s.cfg.wf = true → s.phase = .hunt → b ≠ idGet t j →
    ∃ s' outs, play (frameEvents (idSet t j b) (checksumOf t)) s = .next (s', outs) ∧
      validFlag s'.rx s'.acc = false ∧
      recordsOf outs = [.cksumError (idSet t j b) (checksumOf t) (checksumOf (idSet t j b))]

/-- R188: two HUNT states of one chip, whatever their data registers hold, answer every sequence of events alike. -/
def Obligations.CyclesAreIndependent : Prop :=
  ∀ (evs : List EventWord) (s₁ s₂ : State), s₁.cfg.wf = true → s₁.cfg = s₂.cfg → s₁.phase = .hunt →
    s₂.phase = .hunt →
    ∃ t₁ t₂ outs, play evs s₁ = .next (t₁, outs) ∧ play evs s₂ = .next (t₂, outs) ∧ t₁.phase = t₂.phase

/-- R186: the lock turns on only in the completion step of a complete, checksum-valid frame whose identifier is in the
table. -/
def Obligations.LockTurnsOnOnlyByGrant : Prop :=
  ∀ s t : State, s.Inv → step s = .next t → s.lockOut = false → t.lockOut = true →
    s.phase = .collect ∧ s.cnt = 11#4 ∧ s.acc = checksumOf s.id ∧ t.rx = s.acc ∧ t.utimer = s.cfg.unlockTicks ∧
      ∃ idx e, s.tableRead idx = some e ∧ e.id = s.id ∧ t.record = some (.granted s.id t.rx s.acc idx)

/-- R187: outside RESET, a step carries a record with `sep = 1` exactly when it ends a cycle: it returns to HUNT from another
phase, or it is an EOS in HUNT. -/
def Obligations.SeparatorRecordEndsEveryCycle : Prop :=
  ∀ (s t : State) (ev : EventWord), s.offers ev → decodeEvent ev ≠ .reset → step s = .next t →
    ((∃ r, t.record = some r ∧ r.sep = true) ↔
      (s.phase ≠ .hunt ∧ t.phase = .hunt) ∨ (s.phase = .hunt ∧ decodeEvent ev = .eos))

/-! ## Pulse sequencer -/

/-- R201. -/
def Obligations.UnlockTickCountsDown : Prop :=
  (∀ (d : Byte) (u : Nat), 1 < u → decode (0xA#4 ++ d) u = .ok .unlockTick) ∧
  ∀ s : State, s.phase = .unlock → 1 < s.utimer →
    exec .unlockTick s = .next { s with utimer := s.utimer - 1, accepted := some true, record := none }

/-- R202. -/
def Obligations.LastUnlockTickReleasesLock : Prop :=
  (∀ d : Byte, decode (0xA#4 ++ d) 1 = .ok .unlockTickLast) ∧
  ∀ s : State, s.phase = .unlock → s.utimer = 1 → exec .unlockTickLast s = .next
    { s with utimer := 0, phase := .hunt, accepted := some true, record := some .unlockDone }

/-- R203 and R204: a byte or an EOS during the pulse is refused and changes no register. -/
def Obligations.UnlockRefusesByteAndEos : Prop :=
  (∀ (b : Byte) (u : Nat), decode (0x8#4 ++ b) u = .ok (.unlockByte b) ∧ decode (0x9#4 ++ b) u = .ok .unlockEos) ∧
  ∀ s : State, s.phase = .unlock →
    (∀ b : Byte, exec (.unlockByte b) s = .next { s with accepted := some false, record := none }) ∧
    exec .unlockEos s = .next { s with accepted := some false, record := none }

/-- R35 and R207: the levels are decoded from `phase` alone and the two actuation outputs are equal. -/
def Obligations.ActuationOutputsFollowPhase : Prop :=
  ∀ s : State, (s.lockOut = true ↔ s.phase = .unlock) ∧ s.statusOut = s.lockOut ∧ s.inReady = !s.lockOut

/-- R205 (first half) and R206: with fewer ticks than the timer holds, and any bytes and EOS between them, the pulse is held,
nothing is reported and only the ticks count. -/
def Obligations.PulseIsHeldUntilTheLastTick : Prop :=
  ∀ (evs : List EventWord) (s : State), s.cfg.wf = true → s.phase = .unlock → evs.all noReset = true →
    evs.countP isTick < s.utimer →
    ∃ t outs, play evs s = .next (t, outs) ∧ t.phase = .unlock ∧ t.utimer = s.utimer - evs.countP isTick ∧
      outs.all holdsLock = true

/-- R205 (second half): the tick that uses up the timer releases the lock and reports UNLOCK_DONE once. -/
def Obligations.PulseEndsAtTheLastTick : Prop :=
  ∀ (evs : List EventWord) (s : State), s.cfg.wf = true → s.phase = .unlock → evs.all noReset = true →
    evs.countP isTick + 1 = s.utimer →
    ∃ t outs, play (evs ++ [0x200#10]) s = .next (t, outs ++ [⟨some true, some .unlockDone, true, false, false⟩]) ∧
      outs.all holdsLock = true ∧ t.phase = .hunt ∧ t.utimer = 0

/-- R280 with R203 over a whole frame: the bytes of a frame offered during a pulse are all refused, and no register changes. -/
def Obligations.FrameDuringPulseIsLost : Prop :=
  ∀ (t : TagId) (c : Byte) (s : State), s.cfg.wf = true → s.phase = .unlock →
    play (frameEvents t c) s = .next ({ s with input := [], accepted := some false, record := none },
      List.replicate 13 ⟨some false, none, false, true, true⟩)

/-! ## Encodings -/

/-- A few keys written out from R70-R74 decode to their rows. -/
def Obligations.WrittenOutKeysDecode : Prop :=
  decode 0b11_11_00000000#12 0 = .ok .reset ∧ decode 0b00_00_00000010#12 0 = .ok .huntStart ∧
  decode 0b01_00_00001101#12 0 = .ok .collectStopCr ∧ decode 0b01_00_00110111#12 0 = .ok (.collectDigit 7#4) ∧
  decode 0b01_00_01000110#12 0 = .ok (.collectAlpha 6#3) ∧ decode 0b01_00_01000000#12 0 = .ok (.collectOther 0x40#8) ∧
  decode 0b10_10_00000000#12 2 = .ok .unlockTick ∧ decode 0b10_10_00000000#12 1 = .ok .unlockTickLast

/-- Every well-formed instruction, with every operand its encoding admits, is read back from its key. -/
def Obligations.DecodeOfEncodeIsTheInstruction : Prop :=
  ∀ (i : Instr) (u : Nat), i.wf = true → i.timerOk u = true → decode (encode i) u = .ok i

/-- The other direction: a key that decodes gives a well-formed instruction whose key is the same but for the bits that R71
ignores (the data bits of EOS and TICK; data and phase bits of RESET). -/
def Obligations.EncodeOfDecodeIsTheKey : Prop :=
  ∀ (key : Key) (u : Nat) (i : Instr), decode key u = .ok i → i.wf = true ∧
    encode i = match decodeEvent (key.extractLsb' 0 10) with
      | .byte _ => key
      | .eos | .tick => key &&& 0xF00#12
      | .reset => key &&& 0x300#12

/-- R73: the decoder selects the first row of the opcode table that accepts the key and the timer, and every reachable key
and timer has one. Only the keys of a TICK in UNLOCK ask for a timer, which R30 gives there. -/
def Obligations.DecoderFollowsOpcodeTable : Prop :=
  (∀ (key : Key) (u : Nat), (key &&& 0xF00#12 = 0xA00#12 → 1 ≤ u) →
    (selectRow key u).map OpRow.mnemonic = (decode key u).toOption.map Instr.mnemonic) ∧
  ∀ (p : Phase) (ev : EventWord) (u : Nat), (p = .unlock → 1 ≤ u) → (selectRow (decodeKey p ev) u).isSome = true

/-- R72, R75 (I5): the keys of phase 0b11 are refused but for RESET. -/
def Obligations.ReservedPhaseKeysAreRefused : Prop :=
  ∀ (ev : EventWord) (u : Nat), decode ((0b11#2 : BitVec 2) ++ ev) u =
    if decodeEvent ev = .reset then .ok .reset else .error .reservedPhase

/-- R70 and R71: the canonical event words, and the data bits that EOS, TICK and RESET ignore. -/
def Obligations.EventWordsDecode : Prop :=
  (∀ b : Byte, encodeEvent (.byte b) = (0b00#2 : BitVec 2) ++ b ∧ decodeEvent ((0b00#2 : BitVec 2) ++ b) = .byte b) ∧
  encodeEvent .eos = 0x100#10 ∧ encodeEvent .tick = 0x200#10 ∧ encodeEvent .reset = 0x300#10 ∧
  ∀ d : Byte, decodeEvent ((0b01#2 : BitVec 2) ++ d) = .eos ∧ decodeEvent ((0b10#2 : BitVec 2) ++ d) = .tick ∧
    decodeEvent ((0b11#2 : BitVec 2) ++ d) = .reset

/-- R80, R81, R82: the number of each kind's record word, field by field. -/
def Obligations.RecordWordFields : Prop :=
  ∀ (iw : Nat) (t : TagId) (rx c : Byte) (n : BitVec 4) (i : Nat), i < 2 ^ iw →
    let idNum := ((((t.b0.toNat * 256 + t.b1.toNat) * 256 + t.b2.toNat) * 256 + t.b3.toNat) * 256 + t.b4.toNat)
    let body := idNum * 2 ^ 8 + rx.toNat * 2 ^ 48 + c.toNat * 2 ^ 56
    (recordWord iw .startup).toNat = 0 ∧
    (recordWord iw (.incomplete n)).toNat = 1 + 2 ^ 3 + n.toNat * 2 ^ 4 ∧
    (recordWord iw (.cksumError t rx c)).toNat = 2 + 2 ^ 3 + body ∧
    (recordWord iw (.granted t rx c i)).toNat = 3 + body + i * 2 ^ 64 ∧
    (recordWord iw (.denied t rx c)).toNat = 4 + 2 ^ 3 + body ∧
    (recordWord iw .unlockDone).toNat = 5 + 2 ^ 3

/-- Every record whose index fits is read back from its word. That this takes in records the block never sends (CKSUM_ERROR with
`rx = calc`, GRANTED or DENIED with `rx != calc`, INCOMPLETE with `cnt` 12..15, which R82 and R21 exclude) is the model's choice
(log 11). -/
def Obligations.RecordWordRoundTrip : Prop :=
  ∀ (iw : Nat) (r : Record), r.idxField < 2 ^ iw → decodeRecordWord iw (recordWord iw r) = .ok r

/-- R83: the sink refuses words of kind 6 and 7, and no record has such a word. -/
def Obligations.ReservedRecordKindsAreRefused : Prop :=
  (∀ (c : Config) (w : BitVec (indexWidth c.table.length + 64)), w.toNat % 8 = 6 ∨ w.toNat % 8 = 7 →
    sinkWord c w = .error (.badWord .reservedKind)) ∧
  ∀ (iw : Nat) (r : Record), (recordWord iw r).toNat % 8 < 6

/-- R15: `cnt` is at most 11, the timer fits in `UW` bits and the index in `IW` bits, and `UW` is the least such width. -/
def Obligations.TimerAndIndexFitTheirWidths : Prop :=
  (∀ s : State, s.Inv → s.cnt.toNat ≤ 11 ∧ s.utimer < 2 ^ timerWidth s.cfg.unlockTicks) ∧
  (∀ n : Nat, 1 ≤ n → n < 2 ^ timerWidth n ∧ ∀ w, n < 2 ^ w → timerWidth n ≤ w) ∧
  (∀ (table : List Entry) (t : TagId) (i : Nat), lookup table t = some i → i < 2 ^ indexWidth table.length) ∧
  (∀ n : Nat, n ≤ 2 → indexWidth n = 1) ∧ (∀ n : Nat, 2 < n → indexWidth n = Nat.clog 2 n)

/-! ## The machine -/

/-- When the offered event decodes in the current phase to an instruction, the step takes the event off the offers and is
that instruction. -/
def Obligations.StepRunsTheDecodedInstruction : Prop :=
  ∀ (s : State) (ev : EventWord) (rest : List EventWord) (i : Instr), s.cfg.wf = true → s.input = ev :: rest →
    decode (decodeKey s.phase ev) s.utimer = .ok i → step s = exec i { s with input := rest }

/-- With no event offered the state holds and no record is valid (R38; that `accepted` is then absent is the model's choice,
log 2). -/
def Obligations.StepWithoutEventHolds : Prop :=
  ∀ s : State, s.cfg.wf = true → s.input = [] → step s = .next { s with accepted := none, record := none }

/-- R16: a configuration with no tick in its pulse is refused, in every state. -/
def Obligations.IllFormedConfigurationIsRefused : Prop :=
  ∀ s : State, s.cfg.unlockTicks = 0 → step s = .refused .illFormedConfig

/-- R189, R246, R251: in every state of a well-formed configuration, whatever is offered, the step has a next state. -/
def Obligations.StepIsTotal : Prop :=
  ∀ s : State, 1 ≤ s.cfg.unlockTicks → ∃ t, step s = .next t

/-- R52, R62: no step changes the table or any build-time parameter. -/
def Obligations.StepNeverChangesTheTable : Prop :=
  ∀ s t : State, step s = .next t → t.cfg = s.cfg ∧ ∀ i, t.tableRead i = s.tableRead i

/-- R30 at reset. That the reset state's parameters are open does not matter here (log 3). -/
def Obligations.InvariantHoldsAtReset : Prop := State.reset.Inv

/-- R30: every step keeps the invariants, the checksum's included. -/
def Obligations.StepKeepsTheInvariant : Prop :=
  ∀ s t : State, s.Inv → step s = .next t → t.Inv

/-- R38: the priority of the inputs of one clock cycle, and what the edge does with the event chosen. In the last two clauses,
that `accepted` is absent without an event is the model's choice (log 2). -/
def Obligations.ClockEdgeTakesTheSelectedEvent : Prop :=
  ∀ (s : State) (p : Ports),
    (p.rst = true → clockEdge p s = offer 0x300#10 s) ∧
    (p.rst = false → p.inValid = true → s.phase ≠ .unlock → clockEdge p s = offer ((0b00#2 : BitVec 2) ++ p.inData) s) ∧
    (p.rst = false → p.inValid = false → p.inEos = true → s.phase ≠ .unlock → clockEdge p s = offer 0x100#10 s) ∧
    (p.rst = false → p.tick = true → s.phase = .unlock → clockEdge p s = offer 0x200#10 s) ∧
    (p.rst = false → p.inValid = false → p.inEos = false → s.phase ≠ .unlock → s.cfg.wf = true →
      clockEdge p s = .next { s with input := [], accepted := none, record := none }) ∧
    (p.rst = false → p.tick = false → s.phase = .unlock → s.cfg.wf = true →
      clockEdge p s = .next { s with input := [], accepted := none, record := none })

/-- R38, last sentences: an input that a clock cycle drops is one the event machine treats as a no-op (accepted, a TICK outside
UNLOCK) or a refusal (a byte or EOS in UNLOCK): no register changes and no record comes. -/
def Obligations.DroppedInputsAreNoOps : Prop :=
  ∀ (s : State) (ev : EventWord), s.cfg.wf = true →
    (s.phase ≠ .unlock → decodeEvent ev = .tick →
      offer ev s = .next { s with input := [], accepted := some true, record := none }) ∧
    (s.phase = .unlock → (decodeEvent ev = .eos ∨ ∃ b, decodeEvent ev = .byte b) →
      offer ev s = .next { s with input := [], accepted := some false, record := none })

/-! ## Stimulus and sink -/

/-- R85: FRAME with an identifier's and a checksum's hex digits spells exactly the frame of R76. -/
def Obligations.FrameTextSpellsTheFrame : Prop :=
  ∀ (t : TagId) (c : Byte),
    expandStimulus (.frame (hexId t ++ hexByte c)) = frameEvents t c ∧ (frameEvents t c).length = 13

/-- R221-R225, R227 and the table of R231: the lines of each record kind, and the digits of the hex numbers. -/
def Obligations.SinkLinesPerRecordKind : Prop :=
  ∀ (c : Config) (t : TagId) (a b : Byte) (n : BitVec 4) (idx : Nat),
    sinkLines c .startup = .ok ["RFID reader starting up"] ∧
    sinkLines c (.incomplete n) = .ok [c.incompleteText, ""] ∧
    (a ≠ b → sinkLines c (.cksumError t a b) =
      .ok ["Tag read: " ++ hexId t, "Checksum: " ++ hexByte a ++ " -- error.", ""]) ∧
    (∀ e, c.table[idx]? = some e → sinkLines c (.granted t a a idx) =
      .ok ["Tag read: " ++ hexId t, "Checksum: " ++ hexByte a ++ " -- passed.",
        "Authorized tag ID " ++ String.ofList (Nat.toDigits 10 (idx + 1)) ++ ": unlocking for " ++ e.name]) ∧
    sinkLines c (.denied t a a) =
      .ok ["Tag read: " ++ hexId t, "Checksum: " ++ hexByte a ++ " -- passed.", "Tag not authorized", ""] ∧
    sinkLines c .unlockDone = .ok [""] ∧
    hexId t = hexByte t.b0 ++ hexByte t.b1 ++ hexByte t.b2 ++ hexByte t.b3 ++ hexByte t.b4 ∧
    hexByte a = String.ofList ["0123456789ABCDEF".toList.getD (a.toNat / 16) ' ',
      "0123456789ABCDEF".toList.getD (a.toNat % 16) ' ']

/-- R220 and R228: the text of one record is its lines, each ended by one line feed, and the text of two runs of records is
the text of the one after the text of the other. -/
def Obligations.SinkTextFollowsRecordOrder : Prop :=
  ∀ (c : Config),
    (∀ (r : Record) (lines : List Text), sinkLines c r = .ok lines →
      ∃ x, sinkText c [r] = .ok x ∧ x.toList = lines.flatMap fun l => l.toList ++ [Char.ofNat 0x0A]) ∧
    ∀ (rs rs' : List Record) (x y : Text), sinkText c rs = .ok x → sinkText c rs' = .ok y →
      sinkText c (rs ++ rs') = .ok (x ++ y)

/-- The records that a step emits keep R82's relation of the two checksums, and are ones the sink prints: the index is a table
entry (R51), and the sink reads the same lines from the word as from the record. -/
def Obligations.EveryEmittedRecordFitsItsKind : Prop :=
  ∀ (s t : State) (r : Record), step s = .next t → t.record = some r →
    (∀ d rx c, r = .cksumError d rx c → rx ≠ c) ∧ (∀ d rx c i, r = .granted d rx c i → rx = c) ∧
    (∀ d rx c, r = .denied d rx c → rx = c) ∧
    ∃ lines, sinkLines s.cfg r = .ok lines ∧ sinkWord s.cfg (recordWord (indexWidth s.cfg.table.length) r) = .ok lines

/-! ## The host's duties -/

/-- R208 and R252: while the time base keeps ticking every pulse ends; if it stops, and no RESET comes, the pulse is held for
ever. -/
def Obligations.PulseEndsWhileTimeBaseTicks : Prop :=
  ∀ (moves : Nat → HostMove) (s : State), s.cfg.wf = true → s.phase = .unlock →
    (timeBaseKeepsTicking moves → ∃ n, (cycles moves s n).phase = .hunt) ∧
    ((∀ n, (moves n).ports.tick = false ∧ (moves n).ports.rst = false) →
      ∀ n, (cycles moves s n).phase = .unlock ∧ (cycles moves s n).utimer = s.utimer)

/-- R252 with R38, R37 and R41: a source that keeps its duty has every EOS strobe taken in a cycle with `in_ready` 1 and no `rst`
(in UNLOCK a strobe is dropped all the same), a sink that keeps its duty takes every record shown, and a reset source that keeps
its duty brings every power-up to the reset state. What the cycles before that reset do is the model's choice (log 8), and the
last clause does not rest on it. -/
def Obligations.DutifulHostHasReadyEosAndRecordsTaken : Prop :=
  (∀ (moves : Nat → HostMove) (s : State), hostMovesAllowed moves s →
    (∀ n, (moves n).ports.rst = false → (moves n).ports.inEos = true → (cycles moves s n).inReady = true →
      selectEvent (cycles moves s n).phase (moves n).ports = some .eos) ∧
    ∀ n, recordsTaken moves s n = recordsShown moves s n) ∧
  ∀ (moves : Nat → HostMove) (k : Nat), resetAfterPowerUp moves →
    ∃ n, cycles moves (State.powerOn k) n = State.reset
end

