-- ==== Sys2Proof/Laws/Decode.lean ====
section
/-! SUPPORT. What the decoder answers for each phase and event, said once. -/

namespace Sys2Proof

/-- The row of a COLLECT byte, by its class (30_encoding.md R78). -/
def collectByteRow (b : Byte) : Instr :=
  if b = 0x0D#8 then .collectStopCr
  else if b = 0x0A#8 then .collectStopLf
  else if b = 0x03#8 then .collectStopEtx
  else if b = 0x02#8 then .collectStopStx
  else if (0x30#8).ule b && b.ule 0x39#8 then .collectDigit (b.extractLsb' 0 4)
  else if (0x41#8).ule b && b.ule 0x46#8 then .collectAlpha (b.extractLsb' 0 3)
  else .collectOther b

/-- The row of an event in a phase (R74). -/
def eventRow (p : Phase) (e : Event) (utimer : Nat) : Instr :=
  match e, p with
  | .reset, _ => .reset
  | .byte b, .hunt => if b = 0x02#8 then .huntStart else .huntNoise b
  | .eos, .hunt => .huntEos
  | .tick, .hunt => .huntTick
  | .byte b, .collect => collectByteRow b
  | .eos, .collect => .collectEos
  | .tick, .collect => .collectTick
  | .byte b, .unlock => .unlockByte b
  | .eos, .unlock => .unlockEos
  | .tick, .unlock => if 1 < utimer then .unlockTick else .unlockTickLast

/-- The decoder asks of the timer only whether it is above 1. -/
theorem decode_timer (key : Key) (u : Nat) : decode key u = decode key (if 1 < u then 2 else 0) := by
  by_cases h : 1 < u <;> simp [decode, h]

theorem eventRow_timer (p : Phase) (e : Event) (u : Nat) :
    eventRow p e u = eventRow p e (if 1 < u then 2 else 0) := by
  by_cases h : 1 < u <;> simp [eventRow, h]

/-- `decode` answers `.ok i`, as a Bool. -/
def decodesTo (key : Key) (u : Nat) (i : Instr) : Bool :=
  match decode key u with
  | .ok j => decide (j = i)
  | .error _ => false

theorem decodesTo_iff (key : Key) (u : Nat) (i : Instr) : decodesTo key u i = true ↔ decode key u = .ok i := by
  unfold decodesTo
  split <;> simp_all

theorem decodesTo_hunt : ∀ w : Fin 1024, ∀ u ∈ [0, 2],
    decodesTo (decodeKey .hunt (BitVec.ofFin w)) u (eventRow .hunt (decodeEvent (BitVec.ofFin w)) u) = true := by
  decide +kernel

theorem decodesTo_collect : ∀ w : Fin 1024, ∀ u ∈ [0, 2],
    decodesTo (decodeKey .collect (BitVec.ofFin w)) u (eventRow .collect (decodeEvent (BitVec.ofFin w)) u) = true := by
  decide +kernel

theorem decodesTo_unlock : ∀ w : Fin 1024, ∀ u ∈ [0, 2],
    decodesTo (decodeKey .unlock (BitVec.ofFin w)) u (eventRow .unlock (decodeEvent (BitVec.ofFin w)) u) = true := by
  decide +kernel

/-- In every phase every event word selects a row: no key of a state is refused. -/
theorem decode_event (p : Phase) (w : EventWord) (u : Nat) :
    decode (decodeKey p w) u = .ok (eventRow p (decodeEvent w) u) := by
  rw [decode_timer, eventRow_timer, ← decodesTo_iff]
  have hu : (if 1 < u then 2 else 0) ∈ [0, 2] := by split <;> simp
  cases p
  · exact decodesTo_hunt w.toFin _ hu
  · exact decodesTo_collect w.toFin _ hu
  · exact decodesTo_unlock w.toFin _ hu

theorem decodeEvent_byte_fin : ∀ b : Fin 256, decodeEvent (encodeEvent (.byte (BitVec.ofFin b))) = .byte (BitVec.ofFin b) := by
  decide +kernel

@[simp] theorem decodeEvent_encodeEvent (e : Event) : decodeEvent (encodeEvent e) = e := by
  cases e with
  | byte b => exact decodeEvent_byte_fin b.toFin
  | eos => rfl
  | tick => rfl
  | reset => rfl

end Sys2Proof
end

