-- ==== Sys2Proof/Laws/State.lean ====
section
/-! SUPPORT. One lemma per field of `State` for every update of it, so that no proof unfolds a record update. -/

namespace Sys2Proof.Machine

/-! ## The event is consumed, no record -/

@[simp] theorem State.quiet_phase (s : State) : (s.quiet).phase = s.phase := rfl
@[simp] theorem State.quiet_cnt (s : State) : (s.quiet).cnt = s.cnt := rfl
@[simp] theorem State.quiet_hi (s : State) : (s.quiet).hi = s.hi := rfl
@[simp] theorem State.quiet_id (s : State) : (s.quiet).id = s.id := rfl
@[simp] theorem State.quiet_acc (s : State) : (s.quiet).acc = s.acc := rfl
@[simp] theorem State.quiet_rx (s : State) : (s.quiet).rx = s.rx := rfl
@[simp] theorem State.quiet_utimer (s : State) : (s.quiet).utimer = s.utimer := rfl
@[simp] theorem State.quiet_accepted (s : State) : (s.quiet).accepted = some true := rfl
@[simp] theorem State.quiet_record (s : State) : (s.quiet).record = none := rfl
@[simp] theorem State.quiet_input (s : State) : (s.quiet).input = s.input := rfl
@[simp] theorem State.quiet_cfg (s : State) : (s.quiet).cfg = s.cfg := rfl

/-! ## The event is consumed with a record -/

@[simp] theorem State.emit_phase (r : Record) (s : State) : (s.emit r).phase = s.phase := rfl
@[simp] theorem State.emit_cnt (r : Record) (s : State) : (s.emit r).cnt = s.cnt := rfl
@[simp] theorem State.emit_hi (r : Record) (s : State) : (s.emit r).hi = s.hi := rfl
@[simp] theorem State.emit_id (r : Record) (s : State) : (s.emit r).id = s.id := rfl
@[simp] theorem State.emit_acc (r : Record) (s : State) : (s.emit r).acc = s.acc := rfl
@[simp] theorem State.emit_rx (r : Record) (s : State) : (s.emit r).rx = s.rx := rfl
@[simp] theorem State.emit_utimer (r : Record) (s : State) : (s.emit r).utimer = s.utimer := rfl
@[simp] theorem State.emit_accepted (r : Record) (s : State) : (s.emit r).accepted = some true := rfl
@[simp] theorem State.emit_record (r : Record) (s : State) : (s.emit r).record = some r := rfl
@[simp] theorem State.emit_input (r : Record) (s : State) : (s.emit r).input = s.input := rfl
@[simp] theorem State.emit_cfg (r : Record) (s : State) : (s.emit r).cfg = s.cfg := rfl

/-! ## The event is refused -/

@[simp] theorem State.decline_phase (s : State) : (s.decline).phase = s.phase := rfl
@[simp] theorem State.decline_cnt (s : State) : (s.decline).cnt = s.cnt := rfl
@[simp] theorem State.decline_hi (s : State) : (s.decline).hi = s.hi := rfl
@[simp] theorem State.decline_id (s : State) : (s.decline).id = s.id := rfl
@[simp] theorem State.decline_acc (s : State) : (s.decline).acc = s.acc := rfl
@[simp] theorem State.decline_rx (s : State) : (s.decline).rx = s.rx := rfl
@[simp] theorem State.decline_utimer (s : State) : (s.decline).utimer = s.utimer := rfl
@[simp] theorem State.decline_accepted (s : State) : (s.decline).accepted = some false := rfl
@[simp] theorem State.decline_record (s : State) : (s.decline).record = none := rfl
@[simp] theorem State.decline_input (s : State) : (s.decline).input = s.input := rfl
@[simp] theorem State.decline_cfg (s : State) : (s.decline).cfg = s.cfg := rfl

/-! ## No event -/

@[simp] theorem State.hold_phase (s : State) : (s.hold).phase = s.phase := rfl
@[simp] theorem State.hold_cnt (s : State) : (s.hold).cnt = s.cnt := rfl
@[simp] theorem State.hold_hi (s : State) : (s.hold).hi = s.hi := rfl
@[simp] theorem State.hold_id (s : State) : (s.hold).id = s.id := rfl
@[simp] theorem State.hold_acc (s : State) : (s.hold).acc = s.acc := rfl
@[simp] theorem State.hold_rx (s : State) : (s.hold).rx = s.rx := rfl
@[simp] theorem State.hold_utimer (s : State) : (s.hold).utimer = s.utimer := rfl
@[simp] theorem State.hold_accepted (s : State) : (s.hold).accepted = none := rfl
@[simp] theorem State.hold_record (s : State) : (s.hold).record = none := rfl
@[simp] theorem State.hold_input (s : State) : (s.hold).input = s.input := rfl
@[simp] theorem State.hold_cfg (s : State) : (s.hold).cfg = s.cfg := rfl

/-! ## Back to HUNT -/

@[simp] theorem State.toHunt_phase (s : State) : (s.toHunt).phase = .hunt := rfl
@[simp] theorem State.toHunt_cnt (s : State) : (s.toHunt).cnt = 0#4 := rfl
@[simp] theorem State.toHunt_hi (s : State) : (s.toHunt).hi = s.hi := rfl
@[simp] theorem State.toHunt_id (s : State) : (s.toHunt).id = s.id := rfl
@[simp] theorem State.toHunt_acc (s : State) : (s.toHunt).acc = s.acc := rfl
@[simp] theorem State.toHunt_rx (s : State) : (s.toHunt).rx = s.rx := rfl
@[simp] theorem State.toHunt_utimer (s : State) : (s.toHunt).utimer = s.utimer := rfl
@[simp] theorem State.toHunt_accepted (s : State) : (s.toHunt).accepted = s.accepted := rfl
@[simp] theorem State.toHunt_record (s : State) : (s.toHunt).record = s.record := rfl
@[simp] theorem State.toHunt_input (s : State) : (s.toHunt).input = s.input := rfl
@[simp] theorem State.toHunt_cfg (s : State) : (s.toHunt).cfg = s.cfg := rfl

/-! ## The end of a frame -/

@[simp] theorem endIncomplete_phase (s : State) : (endIncomplete s).phase = .hunt := rfl
@[simp] theorem endIncomplete_cnt (s : State) : (endIncomplete s).cnt = 0#4 := rfl
@[simp] theorem endIncomplete_hi (s : State) : (endIncomplete s).hi = s.hi := rfl
@[simp] theorem endIncomplete_id (s : State) : (endIncomplete s).id = s.id := rfl
@[simp] theorem endIncomplete_acc (s : State) : (endIncomplete s).acc = s.acc := rfl
@[simp] theorem endIncomplete_rx (s : State) : (endIncomplete s).rx = s.rx := rfl
@[simp] theorem endIncomplete_utimer (s : State) : (endIncomplete s).utimer = s.utimer := rfl
@[simp] theorem endIncomplete_accepted (s : State) : (endIncomplete s).accepted = some true := rfl
@[simp] theorem endIncomplete_record (s : State) : (endIncomplete s).record = some (.incomplete s.cnt) := rfl
@[simp] theorem endIncomplete_input (s : State) : (endIncomplete s).input = s.input := rfl
@[simp] theorem endIncomplete_cfg (s : State) : (endIncomplete s).cfg = s.cfg := rfl

/-! ## The start of the pulse -/

@[simp] theorem startPulse_phase (s : State) : (startPulse s).phase = .unlock := rfl
@[simp] theorem startPulse_cnt (s : State) : (startPulse s).cnt = 0#4 := rfl
@[simp] theorem startPulse_hi (s : State) : (startPulse s).hi = s.hi := rfl
@[simp] theorem startPulse_id (s : State) : (startPulse s).id = s.id := rfl
@[simp] theorem startPulse_acc (s : State) : (startPulse s).acc = s.acc := rfl
@[simp] theorem startPulse_rx (s : State) : (startPulse s).rx = s.rx := rfl
@[simp] theorem startPulse_utimer (s : State) : (startPulse s).utimer = s.cfg.unlockTicks := rfl
@[simp] theorem startPulse_accepted (s : State) : (startPulse s).accepted = s.accepted := rfl
@[simp] theorem startPulse_record (s : State) : (startPulse s).record = s.record := rfl
@[simp] theorem startPulse_input (s : State) : (startPulse s).input = s.input := rfl
@[simp] theorem startPulse_cfg (s : State) : (startPulse s).cfg = s.cfg := rfl

/-! ## A tick of the pulse -/

@[simp] theorem countTick_phase (s : State) : (countTick s).phase = s.phase := rfl
@[simp] theorem countTick_cnt (s : State) : (countTick s).cnt = s.cnt := rfl
@[simp] theorem countTick_hi (s : State) : (countTick s).hi = s.hi := rfl
@[simp] theorem countTick_id (s : State) : (countTick s).id = s.id := rfl
@[simp] theorem countTick_acc (s : State) : (countTick s).acc = s.acc := rfl
@[simp] theorem countTick_rx (s : State) : (countTick s).rx = s.rx := rfl
@[simp] theorem countTick_utimer (s : State) : (countTick s).utimer = s.utimer - 1 := rfl
@[simp] theorem countTick_accepted (s : State) : (countTick s).accepted = s.accepted := rfl
@[simp] theorem countTick_record (s : State) : (countTick s).record = s.record := rfl
@[simp] theorem countTick_input (s : State) : (countTick s).input = s.input := rfl
@[simp] theorem countTick_cfg (s : State) : (countTick s).cfg = s.cfg := rfl

/-! ## The end of the pulse -/

@[simp] theorem endPulse_phase (s : State) : (endPulse s).phase = .hunt := rfl
@[simp] theorem endPulse_cnt (s : State) : (endPulse s).cnt = s.cnt := rfl
@[simp] theorem endPulse_hi (s : State) : (endPulse s).hi = s.hi := rfl
@[simp] theorem endPulse_id (s : State) : (endPulse s).id = s.id := rfl
@[simp] theorem endPulse_acc (s : State) : (endPulse s).acc = s.acc := rfl
@[simp] theorem endPulse_rx (s : State) : (endPulse s).rx = s.rx := rfl
@[simp] theorem endPulse_utimer (s : State) : (endPulse s).utimer = 0 := rfl
@[simp] theorem endPulse_accepted (s : State) : (endPulse s).accepted = s.accepted := rfl
@[simp] theorem endPulse_record (s : State) : (endPulse s).record = s.record := rfl
@[simp] theorem endPulse_input (s : State) : (endPulse s).input = s.input := rfl
@[simp] theorem endPulse_cfg (s : State) : (endPulse s).cfg = s.cfg := rfl

/-! ## Reset -/

@[simp] theorem clearRegisters_phase (s : State) : (clearRegisters s).phase = .hunt := rfl
@[simp] theorem clearRegisters_cnt (s : State) : (clearRegisters s).cnt = 0#4 := rfl
@[simp] theorem clearRegisters_hi (s : State) : (clearRegisters s).hi = 0x00#8 := rfl
@[simp] theorem clearRegisters_id (s : State) : (clearRegisters s).id = ⟨0x00#8, 0x00#8, 0x00#8, 0x00#8, 0x00#8⟩ := rfl
@[simp] theorem clearRegisters_acc (s : State) : (clearRegisters s).acc = 0x00#8 := rfl
@[simp] theorem clearRegisters_rx (s : State) : (clearRegisters s).rx = 0x00#8 := rfl
@[simp] theorem clearRegisters_utimer (s : State) : (clearRegisters s).utimer = 0 := rfl
@[simp] theorem clearRegisters_accepted (s : State) : (clearRegisters s).accepted = s.accepted := rfl
@[simp] theorem clearRegisters_record (s : State) : (clearRegisters s).record = s.record := rfl
@[simp] theorem clearRegisters_input (s : State) : (clearRegisters s).input = s.input := rfl
@[simp] theorem clearRegisters_cfg (s : State) : (clearRegisters s).cfg = s.cfg := rfl

/-! ## The high-nibble position -/

@[simp] theorem highNibble_phase (v : Byte) (s : State) : (highNibble v s).phase = s.phase := rfl
@[simp] theorem highNibble_cnt (v : Byte) (s : State) : (highNibble v s).cnt = s.cnt + 1#4 := rfl
@[simp] theorem highNibble_hi (v : Byte) (s : State) : (highNibble v s).hi = v := rfl
@[simp] theorem highNibble_id (v : Byte) (s : State) : (highNibble v s).id = s.id := rfl
@[simp] theorem highNibble_acc (v : Byte) (s : State) : (highNibble v s).acc = s.acc := rfl
@[simp] theorem highNibble_rx (v : Byte) (s : State) : (highNibble v s).rx = s.rx := rfl
@[simp] theorem highNibble_utimer (v : Byte) (s : State) : (highNibble v s).utimer = s.utimer := rfl
@[simp] theorem highNibble_accepted (v : Byte) (s : State) : (highNibble v s).accepted = some true := rfl
@[simp] theorem highNibble_record (v : Byte) (s : State) : (highNibble v s).record = none := rfl
@[simp] theorem highNibble_input (v : Byte) (s : State) : (highNibble v s).input = s.input := rfl
@[simp] theorem highNibble_cfg (v : Byte) (s : State) : (highNibble v s).cfg = s.cfg := rfl

/-! ## An identifier byte -/

@[simp] theorem storeIdByte_phase (j : Fin 5) (b : Byte) (s : State) : (storeIdByte j b s).phase = s.phase := rfl
@[simp] theorem storeIdByte_cnt (j : Fin 5) (b : Byte) (s : State) : (storeIdByte j b s).cnt = s.cnt + 1#4 := rfl
@[simp] theorem storeIdByte_hi (j : Fin 5) (b : Byte) (s : State) : (storeIdByte j b s).hi = s.hi := rfl
@[simp] theorem storeIdByte_id (j : Fin 5) (b : Byte) (s : State) : (storeIdByte j b s).id = idSet s.id j b := rfl
@[simp] theorem storeIdByte_acc (j : Fin 5) (b : Byte) (s : State) : (storeIdByte j b s).acc = checksumStep s.acc b := rfl
@[simp] theorem storeIdByte_rx (j : Fin 5) (b : Byte) (s : State) : (storeIdByte j b s).rx = s.rx := rfl
@[simp] theorem storeIdByte_utimer (j : Fin 5) (b : Byte) (s : State) : (storeIdByte j b s).utimer = s.utimer := rfl
@[simp] theorem storeIdByte_accepted (j : Fin 5) (b : Byte) (s : State) : (storeIdByte j b s).accepted = some true := rfl
@[simp] theorem storeIdByte_record (j : Fin 5) (b : Byte) (s : State) : (storeIdByte j b s).record = none := rfl
@[simp] theorem storeIdByte_input (j : Fin 5) (b : Byte) (s : State) : (storeIdByte j b s).input = s.input := rfl
@[simp] theorem storeIdByte_cfg (j : Fin 5) (b : Byte) (s : State) : (storeIdByte j b s).cfg = s.cfg := rfl

/-! ## Completion, checksum invalid -/

@[simp] theorem completeInvalid_phase (b : Byte) (s : State) : (completeInvalid b s).phase = .hunt := rfl
@[simp] theorem completeInvalid_cnt (b : Byte) (s : State) : (completeInvalid b s).cnt = 0#4 := rfl
@[simp] theorem completeInvalid_hi (b : Byte) (s : State) : (completeInvalid b s).hi = s.hi := rfl
@[simp] theorem completeInvalid_id (b : Byte) (s : State) : (completeInvalid b s).id = s.id := rfl
@[simp] theorem completeInvalid_acc (b : Byte) (s : State) : (completeInvalid b s).acc = s.acc := rfl
@[simp] theorem completeInvalid_rx (b : Byte) (s : State) : (completeInvalid b s).rx = s.rx := rfl
@[simp] theorem completeInvalid_utimer (b : Byte) (s : State) : (completeInvalid b s).utimer = s.utimer := rfl
@[simp] theorem completeInvalid_accepted (b : Byte) (s : State) : (completeInvalid b s).accepted = some true := rfl
@[simp] theorem completeInvalid_record (b : Byte) (s : State) : (completeInvalid b s).record = some (.cksumError s.id b s.acc) := rfl
@[simp] theorem completeInvalid_input (b : Byte) (s : State) : (completeInvalid b s).input = s.input := rfl
@[simp] theorem completeInvalid_cfg (b : Byte) (s : State) : (completeInvalid b s).cfg = s.cfg := rfl

/-! ## Completion, granted -/

@[simp] theorem completeGranted_phase (b : Byte) (i : Nat) (s : State) : (completeGranted b i s).phase = .unlock := rfl
@[simp] theorem completeGranted_cnt (b : Byte) (i : Nat) (s : State) : (completeGranted b i s).cnt = 0#4 := rfl
@[simp] theorem completeGranted_hi (b : Byte) (i : Nat) (s : State) : (completeGranted b i s).hi = s.hi := rfl
@[simp] theorem completeGranted_id (b : Byte) (i : Nat) (s : State) : (completeGranted b i s).id = s.id := rfl
@[simp] theorem completeGranted_acc (b : Byte) (i : Nat) (s : State) : (completeGranted b i s).acc = s.acc := rfl
@[simp] theorem completeGranted_rx (b : Byte) (i : Nat) (s : State) : (completeGranted b i s).rx = s.rx := rfl
@[simp] theorem completeGranted_utimer (b : Byte) (i : Nat) (s : State) : (completeGranted b i s).utimer = s.cfg.unlockTicks := rfl
@[simp] theorem completeGranted_accepted (b : Byte) (i : Nat) (s : State) : (completeGranted b i s).accepted = some true := rfl
@[simp] theorem completeGranted_record (b : Byte) (i : Nat) (s : State) : (completeGranted b i s).record = some (.granted s.id b s.acc i) := rfl
@[simp] theorem completeGranted_input (b : Byte) (i : Nat) (s : State) : (completeGranted b i s).input = s.input := rfl
@[simp] theorem completeGranted_cfg (b : Byte) (i : Nat) (s : State) : (completeGranted b i s).cfg = s.cfg := rfl

/-! ## Completion, denied -/

@[simp] theorem completeDenied_phase (b : Byte) (s : State) : (completeDenied b s).phase = .hunt := rfl
@[simp] theorem completeDenied_cnt (b : Byte) (s : State) : (completeDenied b s).cnt = 0#4 := rfl
@[simp] theorem completeDenied_hi (b : Byte) (s : State) : (completeDenied b s).hi = s.hi := rfl
@[simp] theorem completeDenied_id (b : Byte) (s : State) : (completeDenied b s).id = s.id := rfl
@[simp] theorem completeDenied_acc (b : Byte) (s : State) : (completeDenied b s).acc = s.acc := rfl
@[simp] theorem completeDenied_rx (b : Byte) (s : State) : (completeDenied b s).rx = s.rx := rfl
@[simp] theorem completeDenied_utimer (b : Byte) (s : State) : (completeDenied b s).utimer = s.utimer := rfl
@[simp] theorem completeDenied_accepted (b : Byte) (s : State) : (completeDenied b s).accepted = some true := rfl
@[simp] theorem completeDenied_record (b : Byte) (s : State) : (completeDenied b s).record = some (.denied s.id b s.acc) := rfl
@[simp] theorem completeDenied_input (b : Byte) (s : State) : (completeDenied b s).input = s.input := rfl
@[simp] theorem completeDenied_cfg (b : Byte) (s : State) : (completeDenied b s).cfg = s.cfg := rfl

end Sys2Proof.Machine
end

