-- ==== Sys2Proof/Laws/Ops.lean ====
section
/-! SUPPORT. What each shared operation can do, said once. -/

namespace Sys2Proof.Machine

/-! ## Flags and operands -/

theorem validFlag_iff (b6 acc : Byte) : validFlag b6 acc = true ↔ b6 = acc := by simp [validFlag]

theorem unpackId_packId (w : TagId) : unpackId (packId w) = w := by
  obtain ⟨a, b, c, d, f⟩ := w
  simp only [unpackId, packId, TagId.mk.injEq]
  refine ⟨?_, ?_, ?_, ?_, ?_⟩ <;>
  · apply BitVec.eq_of_getLsbD_eq
    intro i hi
    simp only [BitVec.getLsbD_extractLsb', BitVec.getLsbD_append, hi, decide_true, Bool.true_and]
    repeat (first | (rw [if_pos (by omega)]) | (rw [if_neg (by omega)]))
    congr 1
    omega

theorem packId_injective {t u : TagId} (h : packId t = packId u) : t = u := by
  rw [← unpackId_packId t, ← unpackId_packId u, h]

theorem matchFlag_iff (e : Entry) (t : TagId) : matchFlag e t = true ↔ e.id = t := by
  constructor
  · intro h
    exact packId_injective (by simpa [matchFlag] using h)
  · rintro rfl
    simp [matchFlag]

theorem lookup_lt {table : List Entry} {t : TagId} {i : Nat} (h : lookup table t = some i) : i < table.length := by
  have := List.findIdx?_eq_some_iff_findIdx_eq.mp h
  omega

theorem lookup_nil (t : TagId) : lookup [] t = none := rfl

/-! ## The character step -/

/-- The completion step answers one of three states (R181). -/
theorem completeFrame_cases (b6 : Byte) (s : State) :
    (b6 ≠ s.acc ∧ completeFrame b6 s = completeInvalid b6 s) ∨
    (∃ i, b6 = s.acc ∧ lookup s.cfg.table s.id = some i ∧ completeFrame b6 s = completeGranted b6 i s) ∨
    (b6 = s.acc ∧ lookup s.cfg.table s.id = none ∧ completeFrame b6 s = completeDenied b6 s) := by
  unfold completeFrame
  by_cases h : b6 = s.acc
  · rw [if_pos ((validFlag_iff _ _).mpr h)]
    cases hl : lookup s.cfg.table s.id with
    | none => exact .inr (.inr ⟨h, rfl, rfl⟩)
    | some i => exact .inr (.inl ⟨i, h, rfl, rfl⟩)
  · exact .inl ⟨h, if_neg fun hv => h ((validFlag_iff _ _).mp hv)⟩

/-- The character step latches a nibble, stores an identifier byte, or completes the frame (R127, R123, R124). -/
theorem charStep_cases (v : Byte) (s : State) :
    (lowPosition s.cnt = false ∧ charStep v s = highNibble v s) ∨
    (∃ j : Fin 5, lowPosition s.cnt = true ∧ byteIndex s.cnt = j.val ∧
      charStep v s = storeIdByte j (assemble s.hi v) s) ∨
    (lowPosition s.cnt = true ∧ 5 ≤ byteIndex s.cnt ∧
      charStep v s = completeFrame (assemble s.hi v) { s with rx := assemble s.hi v }) := by
  unfold charStep
  cases hp : lowPosition s.cnt with
  | false => exact .inl ⟨rfl, by simp⟩
  | true =>
    by_cases h : byteIndex s.cnt < 5
    · exact .inr (.inl ⟨⟨byteIndex s.cnt, h⟩, rfl, rfl, by simp [lowNibble, h]⟩)
    · exact .inr (.inr ⟨rfl, by omega, by simp [lowNibble, h]⟩)

@[simp] theorem completeFrame_cfg (b6 : Byte) (s : State) : (completeFrame b6 s).cfg = s.cfg := by
  obtain ⟨-, h⟩ | ⟨i, -, -, h⟩ | ⟨-, -, h⟩ := completeFrame_cases b6 s <;> simp [h]

@[simp] theorem completeFrame_input (b6 : Byte) (s : State) : (completeFrame b6 s).input = s.input := by
  obtain ⟨-, h⟩ | ⟨i, -, -, h⟩ | ⟨-, -, h⟩ := completeFrame_cases b6 s <;> simp [h]

@[simp] theorem charStep_cfg (v : Byte) (s : State) : (charStep v s).cfg = s.cfg := by
  obtain ⟨-, h⟩ | ⟨j, -, -, h⟩ | ⟨-, -, h⟩ := charStep_cases v s <;> simp [h]

@[simp] theorem charStep_input (v : Byte) (s : State) : (charStep v s).input = s.input := by
  obtain ⟨-, h⟩ | ⟨j, -, -, h⟩ | ⟨-, -, h⟩ := charStep_cases v s <;> simp [h]

/-! ## The step -/

theorem wf_iff (c : Config) : c.wf = true ↔ 1 ≤ c.unlockTicks := by
  unfold Config.wf
  split <;> simp_all

theorem build_wf : Config.build.wf = true := rfl

/-- A step that answers a next state found a well-formed configuration, and either had no event to take or ran the
instruction its event selects. -/
theorem step_next_inv {s t : State} (h : step s = .next t) :
    s.cfg.wf = true ∧ ((s.input = [] ∧ t = s.hold) ∨
      ∃ ev rest i, s.input = ev :: rest ∧ decode (decodeKey s.phase ev) s.utimer = .ok i ∧
        exec i { s with input := rest } = .next t) := by
  unfold step at h
  split at h
  · rename_i hwf
    refine ⟨hwf, ?_⟩
    unfold State.takeOffer at h
    cases hin : s.input with
    | nil =>
      rw [hin] at h
      exact .inl ⟨rfl, by simpa using h.symm⟩
    | cons ev rest =>
      rw [hin] at h
      simp only [State.decodeOffer] at h
      split at h
      · rename_i i hd
        exact .inr ⟨ev, rest, i, rfl, hd, h⟩
      · cases h
  · cases h

end Sys2Proof.Machine
end

