-- ==== Sys2Proof/Laws/HostModel.lean ====
section
/-! SUPPORT. One clock edge and sequences of clock cycles, said once. -/

namespace Sys2Proof.Machine

/-- What a clock edge does: the row of the selected event, or nothing. -/
theorem clockEdge_eq {s : State} (p : Ports) (hw : s.cfg.wf = true) :
    clockEdge p s = match selectEvent s.phase p with
      | none => .next { s with input := [], accepted := none, record := none }
      | some e => exec (eventRow s.phase e s.utimer) { s with input := [] } := by
  unfold clockEdge step
  rw [if_pos hw]
  cases selectEvent s.phase p with
  | none => rfl
  | some e => simp [State.takeOffer, State.decodeOffer, decode_event]

@[simp] theorem cycles_zero (moves : Nat → HostMove) (s : State) : cycles moves s 0 = s := rfl

theorem cycles_succ {moves : Nat → HostMove} {s t : State} {n : Nat}
    (h : clockEdge (moves n).ports (cycles moves s n) = .next t) : cycles moves s (n + 1) = t := by
  simp [cycles, h]

@[simp] theorem recordsShown_zero (moves : Nat → HostMove) (s : State) : recordsShown moves s 0 = [] := rfl

@[simp] theorem recordsTaken_zero (moves : Nat → HostMove) (s : State) : recordsTaken moves s 0 = [] := rfl

/-- The two clauses of an allowed move. -/
theorem HostMove.allowed_iff (m : HostMove) (s : State) :
    m.allowed s = true ↔ m.ports.keepsDuty s = true ∧ (m.takesRecord = false → s.record = none) := by
  cases h : m.takesRecord <;> simp [HostMove.allowed, State.recValid, h]

/-- In UNLOCK a cycle takes a RESET, else a TICK, else nothing. -/
theorem selectEvent_unlock (p : Ports) :
    selectEvent .unlock p = if p.rst then some .reset else if p.tick then some .tick else none := by
  simp [selectEvent]

end Sys2Proof.Machine
end

