-- ==== Sys2Proof/Laws/PerInstr.lean ====
section
/-! SUPPORT. Statements made of each instruction as syntax, one lemma a constructor. -/

namespace Sys2Proof.Laws.EncodesItsRow

/-- The key fits the row's fixed bits and field range. -/
def accepted (row : OpRow) (key : Key) : Bool :=
  keyFits key row.mask row.pattern && row.fieldMin.ule (key &&& row.fieldMask) && (key &&& row.fieldMask).ule row.fieldMax

/-- Every row of opcode_table.json that bears the instruction's mnemonic accepts the key of the well-formed instruction,
and there is such a row (30_encoding.md R73). -/
def Statement (i : Instr) : Prop :=
  i.wf = true →
    (opcodeTable.filter fun row => row.mnemonic == i.mnemonic).map (fun row => accepted row (encode i)) = [true]

theorem reset : Statement .reset := fun _ => by decide
theorem huntStart : Statement .huntStart := fun _ => by decide
theorem huntEos : Statement .huntEos := fun _ => by decide
theorem huntTick : Statement .huntTick := fun _ => by decide
theorem collectStopCr : Statement .collectStopCr := fun _ => by decide
theorem collectStopLf : Statement .collectStopLf := fun _ => by decide
theorem collectStopEtx : Statement .collectStopEtx := fun _ => by decide
theorem collectStopStx : Statement .collectStopStx := fun _ => by decide
theorem collectEos : Statement .collectEos := fun _ => by decide
theorem collectTick : Statement .collectTick := fun _ => by decide
theorem unlockEos : Statement .unlockEos := fun _ => by decide
theorem unlockTick : Statement .unlockTick := fun _ => by decide
theorem unlockTickLast : Statement .unlockTickLast := fun _ => by decide

theorem collectDigit (d : BitVec 4) : Statement (.collectDigit d) := by
  have h : ∀ n : Fin 16, (Instr.collectDigit (BitVec.ofFin n)).wf = true →
      accepted ⟨"COLLECT.DIGIT", 0x430#12, 0xFF0#12, 0x00F#12, 0, 9, 0, none⟩ (encode (.collectDigit (BitVec.ofFin n))) = true := by
    decide
  intro hw
  exact congrArg (fun b => [b]) (h d.toFin hw)

theorem collectAlpha (a : BitVec 3) : Statement (.collectAlpha a) := by
  have h : ∀ n : Fin 8, (Instr.collectAlpha (BitVec.ofFin n)).wf = true →
      accepted ⟨"COLLECT.ALPHA", 0x440#12, 0xFF8#12, 0x007#12, 1, 6, 0, none⟩ (encode (.collectAlpha (BitVec.ofFin n))) = true := by
    decide
  intro hw
  exact congrArg (fun b => [b]) (h a.toFin hw)

theorem huntNoise (b : Byte) : Statement (.huntNoise b) := by
  have h : ∀ n : Fin 256, accepted ⟨"HUNT.NOISE", 0x000#12, 0xF00#12, 0, 0, 0, 0, none⟩
      (encode (.huntNoise (BitVec.ofFin n))) = true := by
    decide +kernel
  intro _
  exact congrArg (fun x => [x]) (h b.toFin)

theorem collectOther (b : Byte) : Statement (.collectOther b) := by
  have h : ∀ n : Fin 256, accepted ⟨"COLLECT.OTHER", 0x400#12, 0xF00#12, 0, 0, 0, 0, none⟩
      (encode (.collectOther (BitVec.ofFin n))) = true := by
    decide +kernel
  intro _
  exact congrArg (fun x => [x]) (h b.toFin)

theorem unlockByte (b : Byte) : Statement (.unlockByte b) := by
  have h : ∀ n : Fin 256, accepted ⟨"UNLOCK.BYTE", 0x800#12, 0xF00#12, 0, 0, 0, 0, none⟩
      (encode (.unlockByte (BitVec.ofFin n))) = true := by
    decide +kernel
  intro _
  exact congrArg (fun x => [x]) (h b.toFin)

end Sys2Proof.Laws.EncodesItsRow
end

