-- ==== Sys2Proof/Laws/Play.lean ====
section
/-! SUPPORT. One offered event, and runs of several, said once. -/

namespace Sys2Proof.Machine

/-- Offering one event runs the row of its phase and kind. -/
theorem offer_eq {s : State} (ev : EventWord) (hw : s.cfg.wf = true) :
    offer ev s = exec (eventRow s.phase (decodeEvent ev) s.utimer) { s with input := [] } := by
  unfold offer step
  rw [if_pos hw]
  simp [State.takeOffer, State.decodeOffer, decode_event]

@[simp] theorem play_nil (s : State) : play [] s = .next (s, []) := rfl

theorem play_cons {ev : EventWord} {evs : List EventWord} {s s' t : State} {outs : List StepOut}
    (h : offer ev s = .next s') (h' : play evs s' = .next (t, outs)) : play (ev :: evs) s = .next (t, s'.out :: outs) := by
  simp [play, h, h']

/-- A run over two lists of events is the run over the first and then the run over the second. -/
theorem play_append {evs evs' : List EventWord} {s s' t : State} {outs outs' : List StepOut}
    (h : play evs s = .next (s', outs)) (h' : play evs' s' = .next (t, outs')) :
    play (evs ++ evs') s = .next (t, outs ++ outs') := by
  induction evs generalizing s outs with
  | nil => cases h; exact h'
  | cons ev evs ih =>
    simp only [play, List.cons_append] at h ⊢
    cases ho : offer ev s with
    | fault r => cases r
    | refused r => rw [ho] at h; cases h
    | next x =>
      rw [ho] at h
      simp only at h ⊢
      cases hp : play evs x with
      | fault r => cases r
      | refused r => rw [hp] at h; cases h
      | next y => obtain ⟨y₁, y₂⟩ := y; rw [hp] at h; cases h; rw [ih hp]; rfl

@[simp] theorem recordsOf_append (a b : List StepOut) : recordsOf (a ++ b) = recordsOf a ++ recordsOf b := by
  simp [recordsOf]

/-- `cnt[0]` is the parity of `cnt`. -/
theorem lowPosition_eq (c : BitVec 4) : lowPosition c = decide (c.toNat % 2 = 1) := by
  have h : ∀ n : Fin 16, lowPosition (BitVec.ofFin n) = decide (n.val % 2 = 1) := by decide
  exact h c.toFin

/-- `cnt >> 1` is half of `cnt`. -/
theorem byteIndex_eq (c : BitVec 4) : byteIndex c = c.toNat / 2 := by
  have h : ∀ n : Fin 16, byteIndex (BitVec.ofFin n) = n.val / 2 := by decide
  exact h c.toFin

theorem digitValue_eq (d : BitVec 4) : digitValue d = BitVec.ofNat 8 d.toNat := by
  have h : ∀ n : Fin 16, digitValue (BitVec.ofFin n) = BitVec.ofNat 8 n := by decide
  exact h d.toFin

theorem alphaValue_eq (a : BitVec 3) : alphaValue a = BitVec.ofNat 8 (9 + a.toNat) := by
  have h : ∀ n : Fin 8, alphaValue (BitVec.ofFin n) = BitVec.ofNat 8 (9 + n) := by decide
  exact h a.toFin

end Sys2Proof.Machine
end

