-- ==== Sys2Proof/Laws/Sink.lean ====
section
/-! SUPPORT. The texts of the sink, one equation per definition and per record kind. Rewrite with these and do not unfold
the text functions under a `simp` with free indices: string literals are costly to compare by unfolding. -/

namespace Sys2Proof.Machine

theorem decimal_eq (n : Nat) : decimal n = String.ofList (Nat.toDigits 10 n) := rfl

theorem tagLine_eq (t : TagId) : tagLine t = "Tag read: " ++ hexId t := rfl

theorem checksumLine_passed (a : Byte) : checksumLine a a = "Checksum: " ++ hexByte a ++ " -- passed." := by
  rw [checksumLine, if_pos rfl]

theorem checksumLine_error {a b : Byte} (h : a ≠ b) :
    checksumLine a b = "Checksum: " ++ hexByte a ++ " -- error." := by
  rw [checksumLine, if_neg h]

theorem authorizedLine_eq (idx : Nat) (name : Text) :
    authorizedLine idx name = "Authorized tag ID " ++ decimal (idx + 1) ++ ": unlocking for " ++ name := by
  unfold authorizedLine; with_reducible rfl

theorem sinkLines_startup (c : Config) : sinkLines c .startup = .ok ["RFID reader starting up"] := rfl

theorem sinkLines_incomplete (c : Config) (n : BitVec 4) : sinkLines c (.incomplete n) = .ok [c.incompleteText, ""] := rfl

theorem sinkLines_cksumError (c : Config) (t : TagId) (a b : Byte) :
    sinkLines c (.cksumError t a b) = .ok [tagLine t, checksumLine a b, ""] := by
  simp only [sinkLines, recordLines, Record.sep, if_true, List.cons_append, List.nil_append]

theorem recordLines_granted {c : Config} {idx : Nat} {e : Entry} (t : TagId) (a b : Byte) (h : c.table[idx]? = some e) :
    recordLines c (.granted t a b idx) = .ok [tagLine t, checksumLine a b, authorizedLine idx e.name] := by
  simp only [recordLines, h]

theorem sinkLines_granted {c : Config} {idx : Nat} {e : Entry} (t : TagId) (a b : Byte) (h : c.table[idx]? = some e) :
    sinkLines c (.granted t a b idx) = .ok [tagLine t, checksumLine a b, authorizedLine idx e.name] := by
  rw [sinkLines, recordLines_granted t a b h]
  simp only [Record.sep, Bool.false_eq_true, if_false]

theorem sinkLines_granted_none {c : Config} {idx : Nat} (t : TagId) (a b : Byte) (h : c.table[idx]? = none) :
    sinkLines c (.granted t a b idx) = .error .noSuchEntry := by
  simp only [sinkLines, recordLines, h]

theorem sinkLines_denied (c : Config) (t : TagId) (a b : Byte) :
    sinkLines c (.denied t a b) = .ok [tagLine t, checksumLine a b, "Tag not authorized", ""] := by
  simp only [sinkLines, recordLines, Record.sep, if_true, List.cons_append, List.nil_append]

theorem sinkLines_unlockDone (c : Config) : sinkLines c .unlockDone = .ok [""] := rfl

end Sys2Proof.Machine
end

