-- ==== Sys2Proof/Tests/Slice0.lean ====
section
/-! SUPPORT. The model's own tests: ill-formed terms are refused, keys written out from 30_encoding.md decode to their rows,
one or two steps of each row from 95_test_vectors.md or worked by hand from its rule, and for each statement with hypotheses
a state and operands that meet them all. -/

namespace Sys2Proof.Machine.Tests

open Sys2Proof Sys2Proof.Machine

/-! ## Small states -/

/-- Table TT of 95_test_vectors.md, with `P_UNLOCK_TICKS = 3`. -/
def chip : Config := ⟨[⟨⟨0x01#8, 0x04#8, 0xF5#8, 0xB5#8, 0x22#8⟩, "Jonathan Oxer"⟩,
  ⟨⟨0x00#8, 0x00#8, 0x00#8, 0x00#8, 0x00#8⟩, "Zero Tag"⟩], 3, 1, "incomplete"⟩

/-- Table TD of 95_test_vectors.md: entries 1 and 2 share an identifier. -/
def twins : List Entry := [⟨⟨0x11#8, 0x22#8, 0x33#8, 0x44#8, 0x55#8⟩, "First"⟩,
  ⟨⟨0xAA#8, 0xBB#8, 0xCC#8, 0xDD#8, 0xEE#8⟩, "Dup A"⟩, ⟨⟨0xAA#8, 0xBB#8, 0xCC#8, 0xDD#8, 0xEE#8⟩, "Dup B"⟩]

/-- A chip with no authorized tag (table TE). -/
def lonely : Config := ⟨[], 3, 1, "incomplete"⟩

/-- A chip that is not well formed: its pulse has no tick. -/
def broken : Config := ⟨[], 0, 1, "incomplete"⟩

/-- The identifier of table entry 0. -/
def oxer : TagId := ⟨0x01#8, 0x04#8, 0xF5#8, 0xB5#8, 0x22#8⟩

/-- HUNT with data registers left over from a frame. -/
def idle : State := ⟨.hunt, 0#4, 0x06#8, oxer, 0x67#8, 0x67#8, 0, none, none, [], chip⟩

/-- COLLECT after `n` characters of the frame of `oxer`, with `hi` as given. -/
def mid (n : BitVec 4) (hi : Byte) : State :=
  ⟨.collect, n, hi, oxer, checksumUpTo oxer (byteIndex n), 0x00#8, 0, some true, none, [], chip⟩

/-- COLLECT before the 12th character of the frame "0104F5B5226?": `hi` is 6 and `acc` is 0x67. -/
def last : State := mid 11#4 0x06#8

/-- The same, with an identifier that is not in the table; its checksum is 0x66. -/
def lastOther : State := { last with id := ⟨0x01#8, 0x04#8, 0xF5#8, 0xB5#8, 0x23#8⟩, acc := 0x66#8 }

/-- UNLOCK with `u` ticks left. -/
def held (u : Nat) : State := ⟨.unlock, 0#4, 0x06#8, oxer, 0x67#8, 0x67#8, u, some true, none, [], chip⟩

/-- The next state, if that is the outcome. -/
def next? (o : Host.Outcome State Fault Refusal) : Option State :=
  match o with
  | .next s => some s
  | .fault _ | .refused _ => none

/-- The registers of the block. -/
structure Regs where
  phase : Phase
  cnt : BitVec 4
  hi : Byte
  id : TagId
  acc : Byte
  rx : Byte
  utimer : Nat
  deriving DecidableEq, Repr

/-- The registers of the next state. -/
def regs? (o : Host.Outcome State Fault Refusal) : Option Regs :=
  (next? o).map fun s => ⟨s.phase, s.cnt, s.hi, s.id, s.acc, s.rx, s.utimer⟩

/-- The outputs of the step. -/
def outs? (o : Host.Outcome State Fault Refusal) : Option (Option Bool × Option Record) :=
  (next? o).map fun s => (s.accepted, s.record)

/-! ## WellFormed refuses each ill-formed term -/

theorem test_wf_noise_is_not_start : (Instr.huntNoise 0x02#8).wf = false := by decide
theorem test_wf_digit_ten : (Instr.collectDigit 10#4).wf = false ∧ (Instr.collectDigit 15#4).wf = false := by decide
theorem test_wf_alpha_at_sign : (Instr.collectAlpha 0#3).wf = false := by decide
theorem test_wf_alpha_g : (Instr.collectAlpha 7#3).wf = false := by decide
theorem test_wf_other_stop : ∀ b ∈ stopSet, (Instr.collectOther b).wf = false := by decide
theorem test_wf_other_digit : (Instr.collectOther 0x30#8).wf = false ∧ (Instr.collectOther 0x39#8).wf = false := by decide
theorem test_wf_other_letter : (Instr.collectOther 0x41#8).wf = false ∧ (Instr.collectOther 0x46#8).wf = false := by decide
theorem test_wf_other_neighbours : ∀ b ∈ [0x2F#8, 0x3A#8, 0x40#8, 0x47#8], (Instr.collectOther b).wf = true := by decide
theorem test_wf_config_no_tick : broken.wf = false ∧ chip.wf = true := by decide
theorem test_timer_tick_needs_two : Instr.timerOk .unlockTick 1 = false ∧ Instr.timerOk .unlockTick 2 = true := by decide
theorem test_timer_last_needs_one : Instr.timerOk .unlockTickLast 2 = false ∧ Instr.timerOk .unlockTickLast 0 = false ∧
    Instr.timerOk .unlockTickLast 1 = true := by decide
theorem test_step_refuses_broken_config : step { idle with cfg := broken } = .refused .illFormedConfig := rfl

/-! ## Decoding: keys written out as phase, kind and data bits (30_encoding.md R70-R74) -/

theorem test_decode_reset : (decode 0b11_11_00000000#12 0).toOption = some .reset := by decide
theorem test_decode_reset_in_unlock : (decode 0b10_11_01010101#12 0).toOption = some .reset := by decide
theorem test_decode_hunt_start : (decode 0b00_00_00000010#12 0).toOption = some .huntStart := by decide
theorem test_decode_hunt_noise : (decode 0b00_00_01000001#12 0).toOption = some (.huntNoise 0x41#8) := by decide
theorem test_decode_hunt_eos : (decode 0b00_01_11111111#12 0).toOption = some .huntEos := by decide
theorem test_decode_hunt_tick : (decode 0b00_10_00000001#12 0).toOption = some .huntTick := by decide
theorem test_decode_stop_cr : (decode 0b01_00_00001101#12 0).toOption = some .collectStopCr := by decide
theorem test_decode_stop_lf : (decode 0b01_00_00001010#12 0).toOption = some .collectStopLf := by decide
theorem test_decode_stop_etx : (decode 0b01_00_00000011#12 0).toOption = some .collectStopEtx := by decide
theorem test_decode_stop_stx : (decode 0b01_00_00000010#12 0).toOption = some .collectStopStx := by decide
theorem test_decode_digit_nine : (decode 0b01_00_00111001#12 0).toOption = some (.collectDigit 9#4) := by decide
theorem test_decode_alpha_a : (decode 0b01_00_01000001#12 0).toOption = some (.collectAlpha 1#3) := by decide
theorem test_decode_alpha_f : (decode 0b01_00_01000110#12 0).toOption = some (.collectAlpha 6#3) := by decide
theorem test_decode_other_lower_a : (decode 0b01_00_01100001#12 0).toOption = some (.collectOther 0x61#8) := by decide
theorem test_decode_other_colon : (decode 0b01_00_00111010#12 0).toOption = some (.collectOther 0x3A#8) := by decide
theorem test_decode_other_at : (decode 0b01_00_01000000#12 0).toOption = some (.collectOther 0x40#8) := by decide
theorem test_decode_other_g : (decode 0b01_00_01000111#12 0).toOption = some (.collectOther 0x47#8) := by decide
theorem test_decode_collect_eos : (decode 0b01_01_00000000#12 0).toOption = some .collectEos := by decide
theorem test_decode_collect_tick : (decode 0b01_10_00000000#12 0).toOption = some .collectTick := by decide
theorem test_decode_unlock_byte : (decode 0b10_00_00000010#12 1).toOption = some (.unlockByte 0x02#8) := by decide
theorem test_decode_unlock_eos : (decode 0b10_01_00000000#12 1).toOption = some .unlockEos := by decide
theorem test_decode_unlock_tick : (decode 0b10_10_00000000#12 2).toOption = some .unlockTick := by decide
theorem test_decode_unlock_tick_last : (decode 0b10_10_00000000#12 1).toOption = some .unlockTickLast := by decide
theorem test_decode_reserved_phase : decode 0b11_00_00000010#12 0 = .error .reservedPhase := rfl

/-- The words of opcode_table.json, each row's `match`: 0x440 is the character '@', which is no letter, and 0xA00 is both tick
rows (log 7). -/
theorem test_table_words :
    [0x300, 0x002, 0x000, 0x100, 0x200, 0x40D, 0x40A, 0x403, 0x402].map (decodeTableWord 16) =
      [some .reset, some .huntStart, some (.huntNoise 0#8), some .huntEos, some .huntTick, some .collectStopCr,
        some .collectStopLf, some .collectStopEtx, some .collectStopStx] ∧
    [0x430, 0x440, 0x441, 0x400, 0x500, 0x600, 0x800, 0x900, 0xA00].map (decodeTableWord 16) =
      [some (.collectDigit 0#4), some (.collectOther 0x40#8), some (.collectAlpha 1#3), some (.collectOther 0#8),
        some .collectEos, some .collectTick, some (.unlockByte 0#8), some .unlockEos, some .unlockTick] := by decide

theorem test_table_word_too_wide : decodeTableWord 16 0x1000 = none ∧ decodeTableWord 16 0xC02 = none := by decide

/-- From reset, the very next step runs the placed word's instruction, although the reset chip's parameters are open. -/
theorem test_fetch_start : outs? (step (State.reset.withFetchWord 16 0x002)) = some (some true, none) ∧
    (next? (step (State.reset.withFetchWord 16 0x002))).map State.phase = some .collect := by decide
theorem test_fetch_stop : outs? (step (State.reset.withFetchWord 16 0x40D)) = some (some true, some (.incomplete 0#4)) := by
  decide
theorem test_fetch_tick : (next? (step (State.reset.withFetchWord 16 0xA00))).map State.utimer = some 1 := by decide
theorem test_fetch_refused_byte : outs? (step (State.reset.withFetchWord 16 0x841)) = some (some false, none) := by decide
theorem test_fetch_no_instruction : outs? (step (State.reset.withFetchWord 16 0xC02)) = some (none, none) := by decide

/-! ## One step of each row -/

/-- R270, V-RS-3. -/
theorem test_reset_in_pulse : regs? (exec .reset (held 2)) = some ⟨.hunt, 0#4, 0x00#8, ⟨0#8, 0#8, 0#8, 0#8, 0#8⟩, 0#8, 0#8, 0⟩ ∧
    outs? (exec .reset (held 2)) = some (some true, some .startup) := by decide
/-- V-FB-3: `acc` is cleared, the other data registers keep what the last frame left. -/
theorem test_hunt_start : regs? (exec .huntStart idle) = some ⟨.collect, 0#4, 0x06#8, oxer, 0x00#8, 0x67#8, 0⟩ := by decide
/-- V-FB-1. -/
theorem test_hunt_noise : next? (exec (.huntNoise 0x41#8) idle) = some { idle with accepted := some true } := by decide
/-- V-FB-9. -/
theorem test_hunt_eos : outs? (exec .huntEos idle) = some (some true, some (.incomplete 0#4)) ∧
    regs? (exec .huntEos idle) = some ⟨.hunt, 0#4, 0x06#8, oxer, 0x67#8, 0x67#8, 0⟩ := by decide
/-- V-FB-2. -/
theorem test_hunt_tick : next? (exec .huntTick idle) = some { idle with accepted := some true } := by decide
/-- V-FB-6: the record carries the count before it is cleared. -/
theorem test_stop_cr : outs? (exec .collectStopCr last) = some (some true, some (.incomplete 11#4)) ∧
    (next? (exec .collectStopCr last)).map State.cnt = some 0#4 := by decide
/-- V-FB-5. -/
theorem test_stop_lf : outs? (exec .collectStopLf (mid 2#4 0x00#8)) = some (some true, some (.incomplete 2#4)) := by decide
/-- V-FB-4. -/
theorem test_stop_etx : outs? (exec .collectStopEtx (mid 0#4 0x00#8)) = some (some true, some (.incomplete 0#4)) := by decide
/-- V-FB-7: the start byte does not open a frame. -/
theorem test_stop_stx : outs? (exec .collectStopStx (mid 4#4 0x04#8)) = some (some true, some (.incomplete 4#4)) ∧
    (next? (exec .collectStopStx (mid 4#4 0x04#8))).map State.phase = some .hunt := by decide
/-- V-HX-2, R123: '9' in a high position. -/
theorem test_digit_high : regs? (exec (.collectDigit 9#4) (mid 0#4 0x00#8)) =
    some ⟨.collect, 1#4, 0x09#8, oxer, 0x00#8, 0x00#8, 0⟩ := by decide
/-- L1-1: '7' is the 12th character of "0104F5B52267". -/
theorem test_digit_grants : regs? (exec (.collectDigit 7#4) last) =
      some ⟨.unlock, 0#4, 0x06#8, oxer, 0x67#8, 0x67#8, 3⟩ ∧
    outs? (exec (.collectDigit 7#4) last) = some (some true, some (.granted oxer 0x67#8 0x67#8 0)) := by decide
/-- V-HX-4, R124: 'F' in a low position after '0' stores 0x0F and folds it. -/
theorem test_alpha_low : regs? (exec (.collectAlpha 6#3) (mid 9#4 0x00#8)) =
    some ⟨.collect, 10#4, 0x00#8, ⟨0x01#8, 0x04#8, 0xF5#8, 0xB5#8, 0x0F#8⟩, 0x45#8 ^^^ 0x0F#8, 0x00#8, 0⟩ := by decide
/-- L1-2: a wrong checksum, here 0x6A, over an identifier that is in the table. -/
theorem test_alpha_error : outs? (exec (.collectAlpha 1#3) last) =
    some (some true, some (.cksumError oxer 0x6A#8 0x67#8)) := by decide
/-- V-HX-8d: '0' then 'a' is the byte 0x61. -/
theorem test_other_low : regs? (exec (.collectOther 0x61#8) (mid 1#4 0x00#8)) =
    some ⟨.collect, 2#4, 0x00#8, ⟨0x61#8, 0x04#8, 0xF5#8, 0xB5#8, 0x22#8⟩, 0x61#8, 0x00#8, 0⟩ := by decide
/-- V-HX-10: a lowercase letter in a high position is latched as it is. -/
theorem test_other_high : regs? (exec (.collectOther 0x61#8) (mid 0#4 0x00#8)) =
    some ⟨.collect, 1#4, 0x61#8, oxer, 0x00#8, 0x00#8, 0⟩ := by decide
/-- V-FB-8. -/
theorem test_collect_eos : outs? (exec .collectEos (mid 6#4 0x0F#8)) = some (some true, some (.incomplete 6#4)) ∧
    (next? (exec .collectEos (mid 6#4 0x0F#8))).map State.phase = some .hunt := by decide
/-- V-FB-11, V-PS-4. -/
theorem test_collect_tick : next? (exec .collectTick (mid 3#4 0x00#8)) = some (mid 3#4 0x00#8) := by decide
/-- V-PS-3. -/
theorem test_unlock_byte : next? (exec (.unlockByte 0x02#8) (held 3)) = some { held 3 with accepted := some false } := by decide
/-- V-PS-3. -/
theorem test_unlock_eos : next? (exec .unlockEos (held 3)) = some { held 3 with accepted := some false } := by decide
/-- V-PS-1. -/
theorem test_unlock_tick : next? (exec .unlockTick (held 3)) = some (held 2) := by decide
/-- V-PS-1, V-PS-2. -/
theorem test_unlock_tick_last : regs? (exec .unlockTickLast (held 1)) = some ⟨.hunt, 0#4, 0x06#8, oxer, 0x67#8, 0x67#8, 0⟩ ∧
    outs? (exec .unlockTickLast (held 1)) = some (some true, some .unlockDone) := by decide

/-! ## Datapath, records and sink (95_test_vectors.md) -/

theorem test_assemble : assemble 0x0F#8 0x05#8 = 0xF5#8 ∧ assemble 0x61#8 0x00#8 = 0x10#8 ∧ assemble 0x0F#8 0x61#8 = 0xF1#8 ∧
    assemble 0x61#8 0x62#8 = 0x72#8 ∧ assemble 0x71#8 0x00#8 = 0x10#8 := by decide
theorem test_checksum : checksumOf oxer = 0x67#8 ∧ checksumUpTo oxer 3 = 0xF0#8 := by decide
/-- V-LU-3, V-LU-4 and an identifier in no entry. -/
theorem test_lookup_first : lookup twins ⟨0xAA#8, 0xBB#8, 0xCC#8, 0xDD#8, 0xEE#8⟩ = some 1 ∧
    lookup twins ⟨0x11#8, 0x22#8, 0x33#8, 0x44#8, 0x55#8⟩ = some 0 ∧ lookup twins oxer = none := by decide
theorem test_record_words : recordWord 1 (.granted oxer 0x67#8 0x67#8 0) = 0x067670104F5B52203#65 ∧
    recordWord 1 .unlockDone = 0xD#65 ∧ recordWord 1 (.incomplete 6#4) = 0x69#65 ∧
    recordWord 2 (.granted ⟨0xAA#8, 0xBB#8, 0xCC#8, 0xDD#8, 0xEE#8⟩ 0xEE#8 0xEE#8 1) = 0x1EEEEAABBCCDDEE03#66 := by decide
theorem test_record_denied : recordWord 1 (.denied ⟨0x12#8, 0x34#8, 0x56#8, 0x78#8, 0x9A#8⟩ 0x92#8 0x92#8) =
    0x9292123456789A0C#65 ∧ recordWord 1 .startup = 0#65 := by decide
theorem test_record_reserved : decodeRecordWord 1 0x6#65 = .error .reservedKind ∧
    decodeRecordWord 1 0x7#65 = .error .reservedKind := ⟨rfl, rfl⟩
theorem test_widths : timerWidth 3 = 2 ∧ timerWidth 4 = 3 ∧ timerWidth 1 = 1 ∧ indexWidth 0 = 1 ∧ indexWidth 2 = 1 ∧
    indexWidth 3 = 2 ∧ indexWidth 5 = 3 := by decide
theorem test_tag_line : tagLine oxer = "Tag read: 0104F5B522" := by decide
theorem test_checksum_lines : checksumLine 0x67#8 0x67#8 = "Checksum: 67 -- passed." ∧
    checksumLine 0x68#8 0x67#8 = "Checksum: 68 -- error." := by decide
theorem test_authorized_line : authorizedLine 0 "Jonathan Oxer" = "Authorized tag ID 1: unlocking for Jonathan Oxer" := by decide
/-- The stimulus of program 1, first four events. -/
theorem test_frame_words : (expandStimulus (.frame "010")) = [0x002#10, 0x030#10, 0x031#10, 0x030#10] := by decide
/-- V-CY-1, V-CY-2 and the tie of R38: a byte outside UNLOCK, and a tick in it, come first. -/
theorem test_select_event : selectEvent .collect ⟨false, true, 0x37#8, true, true⟩ = some (.byte 0x37#8) ∧
    selectEvent .unlock ⟨false, true, 0x37#8, true, true⟩ = some .tick ∧
    selectEvent .unlock ⟨true, true, 0x37#8, true, true⟩ = some .reset ∧
    selectEvent .hunt ⟨false, false, 0x37#8, true, true⟩ = some .eos ∧
    selectEvent .hunt ⟨false, false, 0x37#8, false, true⟩ = none := by decide

/-! ## Witnesses: the hypotheses of each statement can be met

Each theorem is named after its statement and shows concrete values that meet every hypothesis of it, and the outcome. -/

theorem test_meets_ResetClearsEveryRegisterFromAnyState : (0xFFF#12 : Key) &&& 0x300#12 = 0x300#12 ∧
    (0x300#12 : Key) &&& 0x300#12 = 0x300#12 ∧ (decode 0xFFF#12 0).toOption = some .reset := by decide

/-- A RESET step, and a step of another event. -/
theorem test_meets_StartupComesOnlyFromReset :
    (State.offers { idle with input := [0x3FF#10] } 0x3FF#10 ∧
      outs? (step { idle with input := [0x3FF#10] }) = some (some true, some .startup)) ∧
    State.offers { idle with input := [0x100#10] } 0x100#10 ∧
      outs? (step { idle with input := [0x100#10] }) = some (some true, some (.incomplete 0#4)) :=
  ⟨⟨rfl, by decide⟩, rfl, by decide⟩

theorem test_meets_HuntStartOpensFrame : idle.phase = .hunt ∧ (next? (exec .huntStart idle)).isSome = true := by decide

theorem test_meets_HuntNoiseIsDiscarded : (0x01#8 : Byte) ≠ 0x02#8 ∧ (0x03#8 : Byte) ≠ 0x02#8 ∧ idle.phase = .hunt := by decide

theorem test_meets_TickOutsidePulseChangesNothing : idle.phase = .hunt ∧ (mid 3#4 0x00#8).phase = .collect := by decide

theorem test_meets_HuntEosReportsIncompleteZero : idle.phase = .hunt := by decide

theorem test_meets_StopByteEndsFrameIncomplete : (mid 0#4 0x00#8).phase = .collect ∧ last.phase = .collect := by decide

theorem test_meets_CollectEosEndsFrameIncomplete : (mid 0#4 0x00#8).phase = .collect ∧ last.phase = .collect := by decide

/-- A byte of each class at the ends of its range. -/
theorem test_meets_ByteClassesInCollect : (∀ b ∈ [0x0D#8, 0x0A#8, 0x03#8, 0x02#8], b ∈ stopSet) ∧
    (∀ b ∈ [0x30#8, 0x39#8], 0x30 ≤ b.toNat ∧ b.toNat ≤ 0x39) ∧ (∀ b ∈ [0x41#8, 0x46#8], 0x41 ≤ b.toNat ∧ b.toNat ≤ 0x46) ∧
    ∀ b ∈ [0x00#8, 0x2F#8, 0x3A#8, 0x40#8, 0x47#8, 0xFF#8], b ∉ stopSet ∧ ¬(0x30 ≤ b.toNat ∧ b.toNat ≤ 0x39) ∧
      ¬(0x41 ≤ b.toNat ∧ b.toNat ≤ 0x46) := by decide

/-- Noise, EOS and TICK. -/
theorem test_meets_NoFrameWithoutStartByte : idle.cfg.wf = true ∧ idle.phase = .hunt ∧
    [0x041#10, 0x100#10, 0x200#10, 0x100#10].all opensNoFrame = true ∧
    [0x041#10, 0x100#10, 0x200#10, 0x100#10].countP isEos = 2 := by decide

theorem test_meets_FrameAfterStaleFrameIsLost : (mid 6#4 0x0F#8).cfg.wf = true ∧ (mid 6#4 0x0F#8).phase = .collect := by decide

/-- Each character row at the first and the last even position. -/
theorem test_meets_EvenCharacterLatchesHighNibble :
    (∀ i ∈ [Instr.collectDigit 0#4, .collectDigit 9#4, .collectAlpha 1#3, .collectAlpha 6#3, .collectOther 0xFF#8],
      (frameCharValue i).isSome = true) ∧
    (mid 0#4 0x00#8).phase = .collect ∧ (mid 0#4 0x00#8).cnt.toNat ≤ 10 ∧ (mid 0#4 0x00#8).cnt.toNat % 2 = 0 ∧
    (mid 10#4 0x00#8).phase = .collect ∧ (mid 10#4 0x00#8).cnt.toNat ≤ 10 ∧ (mid 10#4 0x00#8).cnt.toNat % 2 = 0 := by decide

/-- The first and the last identifier byte. -/
theorem test_meets_OddCharacterStoresIdentifierByte : frameCharValue (.collectDigit 5#4) = some 0x05#8 ∧
    frameCharValue (.collectAlpha 6#3) = some 0x0F#8 ∧ frameCharValue (.collectOther 0x61#8) = some 0x61#8 ∧
    (mid 1#4 0x0F#8).phase = .collect ∧ (mid 1#4 0x0F#8).cnt.toNat = 2 * (0 : Fin 5).val + 1 ∧
    (mid 9#4 0x0F#8).phase = .collect ∧ (mid 9#4 0x0F#8).cnt.toNat = 2 * (4 : Fin 5).val + 1 := by decide

theorem test_meets_WrongChecksumReportsErrorWithoutActuation : frameCharValue (.collectDigit 8#4) = some 0x08#8 ∧
    last.phase = .collect ∧ last.cnt = 11#4 ∧ pairByte last.hi 0x08#8 ≠ last.acc := by decide

/-- Entry 0, and entry 1 with an entry before it that does not match. -/
theorem test_meets_MatchingFrameIsGranted :
    (frameCharValue (.collectDigit 7#4) = some 0x07#8 ∧ last.phase = .collect ∧ last.cnt = 11#4 ∧
      pairByte last.hi 0x07#8 = last.acc ∧ (last.tableRead 0).map Entry.id = some last.id) ∧
    (let s : State := { last with hi := 0x00#8, id := ⟨0#8, 0#8, 0#8, 0#8, 0#8⟩, acc := 0x00#8 }
     frameCharValue (.collectDigit 0#4) = some 0x00#8 ∧ pairByte s.hi 0x00#8 = s.acc ∧
      (s.tableRead 1).map Entry.id = some s.id ∧ (s.tableRead 0).map Entry.id ≠ some s.id) := by decide

theorem test_meets_UnlistedFrameIsDenied : frameCharValue (.collectDigit 6#4) = some 0x06#8 ∧ lastOther.phase = .collect ∧
    lastOther.cnt = 11#4 ∧ pairByte lastOther.hi 0x06#8 = lastOther.acc ∧
    ∀ e ∈ lastOther.cfg.table, e.id ≠ lastOther.id := by decide

/-- The bounds of a hex character's nibble. -/
theorem test_meets_AssembledByteNibbles : (0x0F#8 : Byte).toNat ≤ 15 ∧ (0x00#8 : Byte).toNat ≤ 15 ∧
    (assemble 0x0F#8 0x0F#8).toNat = 255 := by decide

theorem test_meets_ChecksumIsOrderFreeXorFold : last.Inv ∧ last.phase = .collect ∧ last.cnt = 11#4 ∧
    (idBytes oxer).Perm (idBytes ⟨0x22#8, 0xB5#8, 0xF5#8, 0x04#8, 0x01#8⟩) :=
  ⟨⟨by decide, by decide, by decide⟩, by decide, by decide, by decide⟩

theorem test_meets_LookupSelectsFirstMatch : hitFlag twins ⟨0xAA#8, 0xBB#8, 0xCC#8, 0xDD#8, 0xEE#8⟩ = true ∧
    hitFlag twins oxer = false := by decide

/-- A step that denies, on a chip with no tag. -/
theorem test_meets_EmptyTableNeverGrants : ({ last with cfg := lonely, input := [0x037#10] } : State).cfg.table = [] ∧
    frameCharValue (.collectDigit 7#4) = some 0x07#8 ∧ last.cnt = 11#4 ∧ pairByte last.hi 0x07#8 = last.acc ∧
    outs? (step { last with cfg := lonely, input := [0x037#10] }) =
      some (some true, some (.denied oxer 0x67#8 0x67#8)) := by decide

/-- One identifier of the table and one that is not in it. -/
theorem test_meets_FrameRoundTripDecodesIdentifier : idle.cfg.wf = true ∧ idle.phase = .hunt ∧
    lookup idle.cfg.table oxer = some 0 ∧ lookup idle.cfg.table lastOther.id = none := by decide

theorem test_meets_FrameWithWrongChecksumIsAnError : idle.cfg.wf = true ∧ idle.phase = .hunt ∧
    (0x68#8 : Byte) ≠ checksumOf oxer := by decide

/-- V-CK-5. -/
theorem test_meets_ChangedIdentifierByteIsDetected : idle.cfg.wf = true ∧ idle.phase = .hunt ∧
    (0x23#8 : Byte) ≠ idGet oxer 4 ∧ (0x00#8 : Byte) ≠ idGet oxer 0 := by decide

/-- Two HUNT states of one chip with different data registers. -/
theorem test_meets_CyclesAreIndependent :
    (let s : State := { idle with hi := 0xFF#8, id := ⟨9#8, 9#8, 9#8, 9#8, 9#8⟩, acc := 0x11#8, rx := 0x22#8 }
     idle.cfg.wf = true ∧ idle.cfg = s.cfg ∧ idle.phase = .hunt ∧ s.phase = .hunt ∧ idle ≠ s) := by decide

theorem test_meets_LockTurnsOnOnlyByGrant : ({ last with input := [0x037#10] } : State).Inv ∧
    last.lockOut = false ∧ (next? (step { last with input := [0x037#10] })).map State.lockOut = some true :=
  ⟨⟨by decide, by decide, by decide⟩, by decide, by decide⟩

/-- A step that ends a cycle and one that does not. -/
theorem test_meets_SeparatorRecordEndsEveryCycle : State.offers { held 1 with input := [0x200#10] } 0x200#10 ∧
    State.offers { held 2 with input := [0x200#10] } 0x200#10 ∧ decodeEvent 0x200#10 ≠ .reset ∧
    outs? (step { held 1 with input := [0x200#10] }) = some (some true, some .unlockDone) ∧
    outs? (step { held 2 with input := [0x200#10] }) = some (some true, none) :=
  ⟨rfl, rfl, by decide, by decide, by decide⟩

theorem test_meets_UnlockTickCountsDown : (held 2).phase = .unlock ∧ 1 < (held 2).utimer := by decide

theorem test_meets_LastUnlockTickReleasesLock : (held 1).phase = .unlock ∧ (held 1).utimer = 1 := by decide

theorem test_meets_UnlockRefusesByteAndEos : (held 1).phase = .unlock := by decide

/-- Both sides of the outputs' equivalence. -/
theorem test_meets_ActuationOutputsFollowPhase : (held 1).lockOut = true ∧ idle.lockOut = false := by decide

/-- Two ticks of three, with a byte and an EOS between them. -/
theorem test_meets_PulseIsHeldUntilTheLastTick : (held 3).cfg.wf = true ∧ (held 3).phase = .unlock ∧
    [0x200#10, 0x002#10, 0x100#10, 0x200#10].all noReset = true ∧
    [0x200#10, 0x002#10, 0x100#10, 0x200#10].countP isTick < (held 3).utimer := by decide

theorem test_meets_PulseEndsAtTheLastTick : (held 3).cfg.wf = true ∧ (held 3).phase = .unlock ∧
    [0x200#10, 0x002#10, 0x200#10].all noReset = true ∧
    [0x200#10, 0x002#10, 0x200#10].countP isTick + 1 = (held 3).utimer ∧
    ([] : List EventWord).countP isTick + 1 = (held 1).utimer := by decide

theorem test_meets_FrameDuringPulseIsLost : (held 3).cfg.wf = true ∧ (held 3).phase = .unlock := by decide

/-- Every operand-bearing row at the ends of its range, and both tick rows with their timers. -/
theorem test_meets_DecodeOfEncodeIsTheInstruction :
    (∀ i ∈ [Instr.huntNoise 0x00#8, .huntNoise 0xFF#8, .collectDigit 0#4, .collectDigit 9#4, .collectAlpha 1#3, .collectAlpha 6#3,
      .collectOther 0x00#8, .collectOther 0xFF#8, .unlockByte 0x00#8, .unlockByte 0xFF#8], i.wf = true ∧ i.timerOk 0 = true) ∧
    Instr.timerOk .unlockTick 2 = true ∧ Instr.timerOk .unlockTickLast 1 = true := by decide

/-- A key of each kind of event, with ignored bits set. -/
theorem test_meets_EncodeOfDecodeIsTheKey : (decode 0x037#12 0).toOption = some (.huntNoise 0x37#8) ∧
    (decode 0x5FF#12 0).toOption = some .collectEos ∧ (decode 0xAFF#12 1).toOption = some .unlockTickLast ∧
    (decode 0xBFF#12 1).toOption = some .reset := by decide

/-- Keys of HUNT and COLLECT with the timer they are reached with, and an UNLOCK tick key with each timer row. -/
theorem test_meets_DecoderFollowsOpcodeTable : (0x200#12 : Key) &&& 0xF00#12 ≠ 0xA00#12 ∧
    (selectRow 0x200#12 0).map OpRow.mnemonic = some "HUNT.TICK" ∧ (0x437#12 : Key) &&& 0xF00#12 ≠ 0xA00#12 ∧
    (selectRow 0x437#12 0).map OpRow.mnemonic = some "COLLECT.DIGIT" ∧ (0xA55#12 : Key) &&& 0xF00#12 = 0xA00#12 ∧
    (selectRow 0xA00#12 1).map OpRow.mnemonic = some "UNLOCK.TICK_LAST" ∧
    (selectRow 0xA00#12 2).map OpRow.mnemonic = some "UNLOCK.TICK" ∧ (selectRow 0xC02#12 1).isNone = true := by decide

/-- Both sides of the condition. -/
theorem test_meets_ReservedPhaseKeysAreRefused : decodeEvent 0x3FF#10 = .reset ∧ decodeEvent 0x002#10 ≠ .reset := by decide

theorem test_meets_RecordWordFields : (1 : Nat) < 2 ^ 1 ∧ (3 : Nat) < 2 ^ 2 := by decide

theorem test_meets_RecordWordRoundTrip : (Record.granted oxer 0x67#8 0x67#8 1).idxField < 2 ^ 1 ∧
    Record.startup.idxField < 2 ^ 0 := by decide

theorem test_meets_ReservedRecordKindsAreRefused : (0x6#65 : BitVec (1 + 64)).toNat % 8 = 6 ∧
    (0xF#65 : BitVec (1 + 64)).toNat % 8 = 7 := by decide

/-- The full timer, a hit, and the widths at their boundaries. -/
theorem test_meets_TimerAndIndexFitTheirWidths : (held 3).Inv ∧ lookup chip.table (⟨0#8, 0#8, 0#8, 0#8, 0#8⟩) = some 1 ∧
    (3 : Nat) < 2 ^ 2 ∧ (2 : Nat) ≤ 2 ∧ (2 : Nat) < 3 :=
  ⟨⟨by decide, by decide, by decide⟩, by decide, by decide, by decide, by decide⟩

theorem test_meets_StepRunsTheDecodedInstruction :
    (let s : State := { idle with input := [0x002#10, 0x030#10] }
     s.cfg.wf = true ∧ s.input = 0x002#10 :: [0x030#10] ∧
      (decode (decodeKey s.phase 0x002#10) s.utimer).toOption = some .huntStart) := by decide

theorem test_meets_StepWithoutEventHolds : idle.cfg.wf = true ∧ idle.input = [] := by decide

theorem test_meets_IllFormedConfigurationIsRefused : ({ idle with cfg := broken } : State).cfg.unlockTicks = 0 := by decide

theorem test_meets_StepIsTotal : 1 ≤ idle.cfg.unlockTicks := by decide

theorem test_meets_StepNeverChangesTheTable : (next? (step { last with input := [0x037#10] })).isSome = true := by decide

/-- An invariant state of each phase whose step answers a next state. -/
theorem test_meets_StepKeepsTheInvariant :
    idle.Inv ∧ ({ last with input := [0x037#10] } : State).Inv ∧ (held 3).Inv ∧
    (next? (step { last with input := [0x037#10] })).isSome = true :=
  ⟨⟨by decide, by decide⟩, ⟨by decide, by decide, by decide⟩, ⟨by decide, by decide, by decide⟩, by decide⟩

/-- Each clause of the priority has its ports and phase. -/
theorem test_meets_ClockEdgeTakesTheSelectedEvent : idle.phase ≠ .unlock ∧ (held 3).phase = .unlock ∧ idle.cfg.wf = true ∧
    (held 3).cfg.wf = true ∧
    (next? (clockEdge ⟨true, true, 0x37#8, false, true⟩ (held 3))).map State.phase = some .hunt ∧
    (next? (clockEdge ⟨false, true, 0x02#8, true, true⟩ idle)).map State.phase = some .collect ∧
    outs? (clockEdge ⟨false, false, 0x02#8, true, true⟩ idle) = some (some true, some (.incomplete 0#4)) ∧
    (next? (clockEdge ⟨false, true, 0x02#8, true, true⟩ (held 3))).map State.utimer = some 2 ∧
    outs? (clockEdge ⟨false, false, 0x02#8, false, true⟩ idle) = some (none, none) ∧
    outs? (clockEdge ⟨false, true, 0x02#8, true, false⟩ (held 3)) = some (none, none) := by decide

/-- Each kind of dropped input. -/
theorem test_meets_DroppedInputsAreNoOps : idle.cfg.wf = true ∧ (held 3).cfg.wf = true ∧
    (idle.phase ≠ .unlock ∧ decodeEvent 0x200#10 = .tick ∧ outs? (offer 0x200#10 idle) = some (some true, none)) ∧
    ((held 3).phase = .unlock ∧ decodeEvent 0x100#10 = .eos ∧ outs? (offer 0x100#10 (held 3)) = some (some false, none)) ∧
    (decodeEvent 0x002#10 = .byte 0x02#8 ∧ outs? (offer 0x002#10 (held 3)) = some (some false, none)) := by decide

theorem test_meets_SinkLinesPerRecordKind : (0x68#8 : Byte) ≠ 0x67#8 ∧ (chip.table[0]?).isSome = true ∧
    (chip.table[1]?).isSome = true := by decide

theorem test_meets_SinkTextFollowsRecordOrder : (sinkText chip [.startup]).toOption = some "RFID reader starting up\n" ∧
    (sinkText chip [.unlockDone]).toOption = some "\n" := by decide

theorem test_meets_EveryEmittedRecordFitsItsKind :
    outs? (step { last with input := [0x037#10] }) = some (some true, some (.granted oxer 0x67#8 0x67#8 0)) := by decide

/-- A host that resets in cycle 0, strobes EOS and TICK in every cycle and takes every record. -/
def dutiful (n : Nat) : HostMove := ⟨⟨n == 0, false, 0x00#8, true, true⟩, true⟩

/-- A host whose time base has stopped. -/
def stopped (_ : Nat) : HostMove := ⟨⟨false, true, 0x02#8, false, false⟩, true⟩

/-- All duties together, from any power-up. -/
theorem test_meets_hostKeepsDuties (s : State) : hostKeepsDuties dutiful s :=
  ⟨fun _ => rfl, fun n => ⟨n, le_refl n, rfl⟩, ⟨0, rfl⟩⟩

/-- A byte with EOS is no move while the block is ready, and is one during the pulse; a record left lying is no move. -/
theorem test_host_moves_refused : HostMove.allowed ⟨⟨false, true, 0x02#8, true, false⟩, true⟩ idle = false ∧
    HostMove.allowed ⟨⟨false, true, 0x02#8, true, false⟩, true⟩ (held 3) = true ∧
    HostMove.allowed ⟨⟨false, true, 0x02#8, false, false⟩, false⟩ { idle with record := some .unlockDone } = false := by decide

theorem test_meets_PulseEndsWhileTimeBaseTicks : (held 3).cfg.wf = true ∧ (held 3).phase = .unlock ∧
    timeBaseKeepsTicking dutiful ∧ ∀ n, (stopped n).ports.tick = false ∧ (stopped n).ports.rst = false :=
  ⟨by decide, by decide, fun n => ⟨n, le_refl n, rfl⟩, fun _ => ⟨rfl, rfl⟩⟩

/-- In cycle 1, after the reset, the EOS strobe is taken, and the STARTUP record is shown. -/
theorem test_meets_DutifulHostHasReadyEosAndRecordsTaken : hostMovesAllowed dutiful idle ∧ resetAfterPowerUp dutiful ∧
    (dutiful 1).ports.rst = false ∧ (dutiful 1).ports.inEos = true ∧ (cycles dutiful idle 1).inReady = true ∧
    recordsShown dutiful idle 2 = [.startup] :=
  ⟨fun _ => rfl, ⟨0, rfl⟩, by decide, by decide, by decide, by decide⟩

end Sys2Proof.Machine.Tests
end

section
/-! PROOFS. The widths and the well-formed configurations of 00_scope.md (R15, R16). -/

namespace Sys2Proof.Machine

/-! ## Widths (R15) -/

theorem lt_two_pow_timerWidth (n : Nat) : n < 2 ^ timerWidth n := Nat.lt_log2_self

/-- `timerWidth n` is the least width that holds `n`. -/
theorem timerWidth_le_iff {n : Nat} (hn : n ≠ 0) (w : Nat) : timerWidth n ≤ w ↔ n < 2 ^ w := Nat.log2_lt hn

theorem indexWidth_of_le_two {n : Nat} (h : n ≤ 2) : indexWidth n = 1 := if_pos h

/-- Above two entries, the index width is the timer width of the last index. -/
theorem indexWidth_of_two_lt {n : Nat} (h : 2 < n) : indexWidth n = timerWidth (n - 1) := if_neg (by omega)

/-- The two widths are equal because the same widths `w` are at least as large: those that hold the last index `n - 1`. -/
theorem indexWidth_eq_clog {n : Nat} (h : 2 < n) : indexWidth n = Nat.clog 2 n :=
  eq_of_forall_ge_iff fun w => calc
    indexWidth n ≤ w ↔ n - 1 < 2 ^ w := by rw [indexWidth_of_two_lt h, timerWidth_le_iff (by omega)]
    _ ↔ n ≤ 2 ^ w := by omega
    _ ↔ Nat.clog 2 n ≤ w := (Nat.clog_le_iff_le_pow one_lt_two).symm

theorem le_two_pow_indexWidth (n : Nat) : n ≤ 2 ^ indexWidth n := by
  by_cases h : n ≤ 2
  · simpa [indexWidth_of_le_two h] using h
  · rw [indexWidth_eq_clog (by omega)]
    exact Nat.le_pow_clog one_lt_two n

theorem lookup_lt_two_pow_indexWidth {table : List Entry} {t : TagId} {i : Nat} (h : lookup table t = some i) :
    i < 2 ^ indexWidth table.length :=
  (lookup_lt h).trans_le (le_two_pow_indexWidth _)

/-! ## What the invariant bounds in every phase (10_state.md R30) -/

theorem State.inv_of_hunt {s : State} (hp : s.phase = .hunt) : s.Inv ↔ s.cnt = 0#4 ∧ s.utimer = 0 := by
  rw [State.Inv, hp]

theorem State.inv_of_collect {s : State} (hp : s.phase = .collect) :
    s.Inv ↔ s.cnt ≤ 11#4 ∧ s.utimer = 0 ∧ s.acc = checksumUpTo s.id (byteIndex s.cnt) := by
  rw [State.Inv, hp]

theorem State.inv_of_unlock {s : State} (hp : s.phase = .unlock) :
    s.Inv ↔ s.cnt = 0#4 ∧ 1 ≤ s.utimer ∧ s.utimer ≤ s.cfg.unlockTicks := by
  rw [State.Inv, hp]

theorem State.Inv.cnt_le {s : State} (h : s.Inv) : s.cnt.toNat ≤ 11 := by
  cases hp : s.phase with
  | hunt =>
    obtain ⟨hcnt, -⟩ := (State.inv_of_hunt hp).mp h
    simp [hcnt]
  | collect =>
    obtain ⟨hcnt, -, -⟩ := (State.inv_of_collect hp).mp h
    exact hcnt
  | unlock =>
    obtain ⟨hcnt, -, -⟩ := (State.inv_of_unlock hp).mp h
    simp [hcnt]

theorem State.Inv.utimer_le {s : State} (h : s.Inv) : s.utimer ≤ s.cfg.unlockTicks := by
  cases hp : s.phase with
  | hunt =>
    obtain ⟨-, hut⟩ := (State.inv_of_hunt hp).mp h
    simp [hut]
  | collect =>
    obtain ⟨-, hut, -⟩ := (State.inv_of_collect hp).mp h
    simp [hut]
  | unlock =>
    obtain ⟨-, -, hut⟩ := (State.inv_of_unlock hp).mp h
    exact hut

/-! ## Refusal of an ill-formed configuration (R16) -/

theorem wf_eq_false_iff (c : Config) : c.wf = false ↔ c.unlockTicks = 0 := by
  rw [← Bool.not_eq_true, wf_iff]
  omega

theorem step_of_wf_false {s : State} (h : s.cfg.wf = false) : step s = .refused .illFormedConfig := by
  simp [step, h]

/-- Settles O45: the invariant bounds `cnt` and `utimer` in every phase, and each width is characterised by the widths
that are at least as large. -/
theorem timerAndIndexFitTheirWidths : Obligations.TimerAndIndexFitTheirWidths := by
  refine ⟨fun s hs => ⟨hs.cnt_le, ?_⟩, fun n hn => ⟨lt_two_pow_timerWidth n, fun w hw => ?_⟩, fun _ _ _ h => ?_,
    fun _ => indexWidth_of_le_two, fun _ => indexWidth_eq_clog⟩
  · exact hs.utimer_le.trans_lt (lt_two_pow_timerWidth _)
  · exact (timerWidth_le_iff (by omega) w).mpr hw
  · exact lookup_lt_two_pow_indexWidth h

/-- Settles O48: with no tick in its pulse the configuration is not well formed, which the step checks first. -/
theorem illFormedConfigurationIsRefused : Obligations.IllFormedConfigurationIsRefused :=
  fun s h => step_of_wf_false ((wf_eq_false_iff s.cfg).mpr h)

end Sys2Proof.Machine
end

section
/-! PROOFS. What each row does, said once for the whole next state, and the step as the row of the offered event. -/

namespace Sys2Proof.Machine

/-! ## The effect of each row (opcode_table.json) -/

@[simp] theorem exec_reset (s : State) : exec .reset s = .next ((clearRegisters s).emit .startup) := rfl
@[simp] theorem exec_huntStart (s : State) :
    exec .huntStart s = .next { s.quiet with phase := .collect, cnt := 0#4, acc := 0x00#8 } := rfl
@[simp] theorem exec_huntNoise (b : Byte) (s : State) : exec (.huntNoise b) s = .next s.quiet := rfl
@[simp] theorem exec_huntEos (s : State) : exec .huntEos s = .next (s.emit (.incomplete 0#4)) := rfl
@[simp] theorem exec_huntTick (s : State) : exec .huntTick s = .next s.quiet := rfl
@[simp] theorem exec_collectStopCr (s : State) : exec .collectStopCr s = .next (endIncomplete s) := rfl
@[simp] theorem exec_collectStopLf (s : State) : exec .collectStopLf s = .next (endIncomplete s) := rfl
@[simp] theorem exec_collectStopEtx (s : State) : exec .collectStopEtx s = .next (endIncomplete s) := rfl
@[simp] theorem exec_collectStopStx (s : State) : exec .collectStopStx s = .next (endIncomplete s) := rfl
@[simp] theorem exec_collectDigit (d : BitVec 4) (s : State) :
    exec (.collectDigit d) s = .next (charStep (digitValue d) s) := rfl
@[simp] theorem exec_collectAlpha (a : BitVec 3) (s : State) :
    exec (.collectAlpha a) s = .next (charStep (alphaValue a) s) := rfl
@[simp] theorem exec_collectOther (b : Byte) (s : State) : exec (.collectOther b) s = .next (charStep b s) := rfl
@[simp] theorem exec_collectEos (s : State) : exec .collectEos s = .next (endIncomplete s) := rfl
@[simp] theorem exec_collectTick (s : State) : exec .collectTick s = .next s.quiet := rfl
@[simp] theorem exec_unlockByte (b : Byte) (s : State) : exec (.unlockByte b) s = .next s.decline := rfl
@[simp] theorem exec_unlockEos (s : State) : exec .unlockEos s = .next s.decline := rfl
@[simp] theorem exec_unlockTick (s : State) : exec .unlockTick s = .next (countTick s.quiet) := rfl
@[simp] theorem exec_unlockTickLast (s : State) :
    exec .unlockTickLast s = .next (endPulse (s.emit .unlockDone)) := rfl

/-- A COLLECT byte ends the frame when it is a stop byte and is a character of it otherwise (30_encoding.md R78). -/
theorem exec_collectByteRow_cases (b : Byte) (s : State) :
    exec (collectByteRow b) s = .next (endIncomplete s) ∨
    ∃ v, exec (collectByteRow b) s = .next (charStep v s) := by
  unfold collectByteRow
  split_ifs
  · exact .inl rfl
  · exact .inl rfl
  · exact .inl rfl
  · exact .inl rfl
  · exact .inr ⟨_, rfl⟩
  · exact .inr ⟨_, rfl⟩
  · exact .inr ⟨_, rfl⟩

/-! ## The row of an event, by phase (30_encoding.md R74) -/

@[simp] theorem eventRow_reset (p : Phase) (u : Nat) : eventRow p .reset u = .reset := by cases p <;> rfl
@[simp] theorem eventRow_hunt_byte (b : Byte) (u : Nat) :
    eventRow .hunt (.byte b) u = if b = 0x02#8 then .huntStart else .huntNoise b := rfl
@[simp] theorem eventRow_hunt_eos (u : Nat) : eventRow .hunt .eos u = .huntEos := rfl
@[simp] theorem eventRow_hunt_tick (u : Nat) : eventRow .hunt .tick u = .huntTick := rfl
@[simp] theorem eventRow_collect_byte (b : Byte) (u : Nat) : eventRow .collect (.byte b) u = collectByteRow b := rfl
@[simp] theorem eventRow_collect_eos (u : Nat) : eventRow .collect .eos u = .collectEos := rfl
@[simp] theorem eventRow_collect_tick (u : Nat) : eventRow .collect .tick u = .collectTick := rfl
@[simp] theorem eventRow_unlock_byte (b : Byte) (u : Nat) : eventRow .unlock (.byte b) u = .unlockByte b := rfl
@[simp] theorem eventRow_unlock_eos (u : Nat) : eventRow .unlock .eos u = .unlockEos := rfl
@[simp] theorem eventRow_unlock_tick (u : Nat) :
    eventRow .unlock .tick u = if 1 < u then .unlockTick else .unlockTickLast := rfl

/-! ## The step (44_cycle_controller.md R189) -/

theorem step_of_no_offer {s : State} (hwf : s.cfg.wf = true) (hin : s.input = []) : step s = .next s.hold := by
  simp [step, hwf, State.takeOffer, hin]

/-- The step inverted down to the event: it held for want of one, or ran that event's row. -/
theorem step_next_event {s t : State} (h : step s = .next t) :
    s.cfg.wf = true ∧ (t = s.hold ∨ ∃ ev rest, s.input = ev :: rest ∧
      exec (eventRow s.phase (decodeEvent ev) s.utimer) { s with input := rest } = .next t) := by
  obtain ⟨hwf, ⟨-, rfl⟩ | ⟨ev, rest, i, hin, hdec, hexec⟩⟩ := step_next_inv h
  · exact ⟨hwf, .inl rfl⟩
  · rw [decode_event, Except.ok.injEq] at hdec
    subst hdec
    exact ⟨hwf, .inr ⟨ev, rest, hin, hexec⟩⟩

end Sys2Proof.Machine
end

section
/-! PROOFS. The state of 10_state.md: the identifier byte file (R23), the invariants (R30) and that every step keeps them, the
levels (R35), reset (R40, R41), and the event of a clock cycle (R38). -/

namespace Sys2Proof.Machine

/-! ## The identifier byte file as the list of its bytes (R23) -/

theorem length_idBytes (t : TagId) : (idBytes t).length = 5 := rfl

theorem idBytes_getElem? (t : TagId) (j : Fin 5) : (idBytes t)[j.val]? = some (idGet t j) := by
  fin_cases j <;> rfl

theorem idBytes_idSet (t : TagId) (j : Fin 5) (b : Byte) : idBytes (idSet t j b) = (idBytes t).set j b := by
  fin_cases j <;> rfl

/-- Settles O15: writing `id[j]` sets the `j`-th element of the list of bytes, and reading `id[k]` is reading that list. -/
theorem identifierByteFileReadAfterWrite : Obligations.IdentifierByteFileReadAfterWrite := by
  intro t j k b
  have hget : some (idGet (idSet t j b) k) = if k = j then some b else some (idGet t k) := by
    rw [← idBytes_getElem?, ← idBytes_getElem?, idBytes_idSet, List.getElem?_set]
    simp [length_idBytes, Fin.ext_iff, eq_comm]
  split_ifs at hget ⊢ <;> exact Option.some.inj hget

/-! ## The checksum of the bytes assembled so far -/

/-- Storing byte `j` folds it into the checksum of the `j` bytes before it, which it does not touch. -/
theorem checksumUpTo_idSet_succ (t : TagId) (j : Fin 5) (b : Byte) :
    checksumUpTo (idSet t j b) (j + 1) = checksumStep (checksumUpTo t j) b := by
  have htake : (idBytes (idSet t j b)).take (j + 1) = (idBytes t).take j ++ [b] := by
    rw [idBytes_idSet, List.take_add_one, List.take_set_of_le (Nat.le_refl _)]
    simp [length_idBytes]
  simp [checksumUpTo, htake]

/-! ## One more character (R21) -/

theorem toNat_cnt_add_one {c : BitVec 4} (h : c.toNat < 15) : (c + 1#4).toNat = c.toNat + 1 := by
  rw [BitVec.toNat_add, BitVec.toNat_ofNat]
  omega

/-- After a high nibble the next position is the low one of the same byte. -/
theorem byteIndex_add_one_of_high {c : BitVec 4} (h : lowPosition c = false) : byteIndex (c + 1#4) = byteIndex c := by
  have heven : c.toNat % 2 = 0 := by
    have := of_decide_eq_false ((lowPosition_eq c).symm.trans h)
    omega
  rw [byteIndex_eq, byteIndex_eq, toNat_cnt_add_one (by omega)]
  omega

/-- After a low nibble the next byte begins. -/
theorem byteIndex_add_one_of_low {c : BitVec 4} (h : lowPosition c = true) (hlt : byteIndex c < 5) :
    byteIndex (c + 1#4) = byteIndex c + 1 := by
  have hodd : c.toNat % 2 = 1 := of_decide_eq_true ((lowPosition_eq c).symm.trans h)
  rw [byteIndex_eq] at hlt
  rw [byteIndex_eq, byteIndex_eq, toNat_cnt_add_one (by omega)]
  omega

/-- `cnt` stays within 11 unless the character completes the frame: 11 is the low position of byte 5. -/
theorem cnt_add_one_le {c : BitVec 4} (hle : c ≤ 11#4) (h : lowPosition c = false ∨ byteIndex c < 5) :
    c + 1#4 ≤ 11#4 := by
  have hle' : c.toNat ≤ 11 := hle
  have hlt : c.toNat < 11 := by
    rcases h with h | h
    · have := of_decide_eq_false ((lowPosition_eq c).symm.trans h)
      omega
    · rw [byteIndex_eq] at h
      omega
  show (c + 1#4).toNat ≤ 11
  rw [toNat_cnt_add_one (by omega)]
  omega

/-! ## Each operation keeps the invariants (R30) -/

/-- The invariants do not speak of the outputs or of the host's offers. -/
theorem State.Inv.withInput {s : State} (h : s.Inv) (input : List EventWord) : ({ s with input := input } : State).Inv := h

theorem State.Inv.quiet {s : State} (h : s.Inv) : s.quiet.Inv := h

theorem State.Inv.decline {s : State} (h : s.Inv) : s.decline.Inv := h

theorem State.Inv.hold {s : State} (h : s.Inv) : s.hold.Inv := h

theorem State.Inv.emit {s : State} (h : s.Inv) (r : Record) : (s.emit r).Inv := h

theorem State.Inv.utimer_of_collect {s : State} (h : s.Inv) (hp : s.phase = .collect) : s.utimer = 0 := by
  obtain ⟨-, hut, -⟩ := (State.inv_of_collect hp).mp h
  exact hut

theorem inv_clearRegisters (s : State) : (clearRegisters s).Inv := (State.inv_of_hunt rfl).mpr ⟨rfl, rfl⟩

theorem inv_toHunt {s : State} (hut : s.utimer = 0) : s.toHunt.Inv := (State.inv_of_hunt rfl).mpr ⟨rfl, hut⟩

theorem inv_startPulse {s : State} (hwf : s.cfg.wf = true) : (startPulse s).Inv :=
  (State.inv_of_unlock rfl).mpr ⟨rfl, (wf_iff _).mp hwf, le_rfl⟩

theorem inv_countTick {s : State} (hp : s.phase = .unlock) (hs : s.Inv) (hut : 1 < s.utimer) : (countTick s).Inv := by
  obtain ⟨hcnt, -, hmax⟩ := (State.inv_of_unlock hp).mp hs
  refine (State.inv_of_unlock (s := countTick s) hp).mpr ⟨hcnt, ?_, ?_⟩ <;>
  · simp only [countTick_utimer, countTick_cfg]
    omega

theorem inv_endPulse {s : State} (hcnt : s.cnt = 0#4) : (endPulse s).Inv := (State.inv_of_hunt rfl).mpr ⟨hcnt, rfl⟩

theorem inv_huntStart {s : State} (hut : s.utimer = 0) :
    ({ s.quiet with phase := .collect, cnt := 0#4, acc := 0x00#8 } : State).Inv := by
  have hcnt : 0#4 ≤ 11#4 := by decide
  have hacc : 0x00#8 = checksumUpTo s.id (byteIndex 0#4) := rfl
  exact (State.inv_of_collect rfl).mpr ⟨hcnt, hut, hacc⟩

theorem inv_highNibble {v : Byte} {s : State} (hp : s.phase = .collect) (hs : s.Inv) (hpos : lowPosition s.cnt = false) :
    (highNibble v s).Inv := by
  obtain ⟨hcnt, hut, hacc⟩ := (State.inv_of_collect hp).mp hs
  refine (State.inv_of_collect (s := highNibble v s) hp).mpr ⟨cnt_add_one_le hcnt (.inl hpos), hut, ?_⟩
  simp [byteIndex_add_one_of_high hpos, hacc]

theorem inv_storeIdByte {j : Fin 5} {b : Byte} {s : State} (hp : s.phase = .collect) (hs : s.Inv)
    (hpos : lowPosition s.cnt = true) (hj : byteIndex s.cnt = j) : (storeIdByte j b s).Inv := by
  obtain ⟨hcnt, hut, hacc⟩ := (State.inv_of_collect hp).mp hs
  have hlt : byteIndex s.cnt < 5 := hj ▸ j.isLt
  refine (State.inv_of_collect (s := storeIdByte j b s) hp).mpr ⟨cnt_add_one_le hcnt (.inr hlt), hut, ?_⟩
  simp [byteIndex_add_one_of_low hpos hlt, hj, checksumUpTo_idSet_succ, hacc]

theorem inv_completeFrame {b : Byte} {s : State} (hwf : s.cfg.wf = true) (hut : s.utimer = 0) : (completeFrame b s).Inv := by
  obtain ⟨-, h⟩ | ⟨i, -, -, h⟩ | ⟨-, -, h⟩ := completeFrame_cases b s <;> rw [h]
  · exact inv_toHunt hut
  · exact inv_startPulse hwf
  · exact inv_toHunt hut

theorem inv_charStep {v : Byte} {s : State} (hwf : s.cfg.wf = true) (hp : s.phase = .collect) (hs : s.Inv) :
    (charStep v s).Inv := by
  obtain ⟨hpos, h⟩ | ⟨j, hpos, hj, h⟩ | ⟨-, -, h⟩ := charStep_cases v s <;> rw [h]
  · exact inv_highNibble hp hs hpos
  · exact inv_storeIdByte hp hs hpos hj
  · exact inv_completeFrame hwf (hs.utimer_of_collect hp)

/-! ## The row of every event keeps the invariants, phase by phase -/

/-- An outcome whose next state, if it has one, satisfies the invariants. -/
def NextInv (o : Host.Outcome State Fault Refusal) : Prop := ∀ t, o = .next t → t.Inv

theorem nextInv_next {s : State} : NextInv (.next s) ↔ s.Inv :=
  ⟨fun h => h s rfl, fun h t ht => by cases ht; exact h⟩

theorem nextInv_reset (s : State) : NextInv (exec .reset s) :=
  nextInv_next.mpr ((inv_clearRegisters s).emit .startup)

theorem nextInv_hunt {s : State} (hp : s.phase = .hunt) (hs : s.Inv) (e : Event) :
    NextInv (exec (eventRow .hunt e s.utimer) s) := by
  obtain ⟨-, hut⟩ := (State.inv_of_hunt hp).mp hs
  cases e with
  | byte b =>
    rw [eventRow_hunt_byte]
    split
    · exact nextInv_next.mpr (inv_huntStart hut)
    · exact nextInv_next.mpr hs.quiet
  | eos => exact nextInv_next.mpr (hs.emit _)
  | tick => exact nextInv_next.mpr hs.quiet
  | reset => exact nextInv_reset s

theorem nextInv_collect {s : State} (hwf : s.cfg.wf = true) (hp : s.phase = .collect) (hs : s.Inv) (e : Event) :
    NextInv (exec (eventRow .collect e s.utimer) s) := by
  have hend : (endIncomplete s).Inv := inv_toHunt (hs.utimer_of_collect hp)
  cases e with
  | byte b =>
    rw [eventRow_collect_byte]
    obtain h | ⟨v, h⟩ := exec_collectByteRow_cases b s <;> rw [h, nextInv_next]
    · exact hend
    · exact inv_charStep hwf hp hs
  | eos => exact nextInv_next.mpr hend
  | tick => exact nextInv_next.mpr hs.quiet
  | reset => exact nextInv_reset s

theorem nextInv_unlock {s : State} (hp : s.phase = .unlock) (hs : s.Inv) (e : Event) :
    NextInv (exec (eventRow .unlock e s.utimer) s) := by
  obtain ⟨hcnt, -, -⟩ := (State.inv_of_unlock hp).mp hs
  cases e with
  | byte b => exact nextInv_next.mpr hs.decline
  | eos => exact nextInv_next.mpr hs.decline
  | tick =>
    rw [eventRow_unlock_tick]
    split
    · exact nextInv_next.mpr (inv_countTick hp hs.quiet ‹_›)
    · exact nextInv_next.mpr (inv_endPulse hcnt)
  | reset => exact nextInv_reset s

theorem nextInv_eventRow {s : State} (hwf : s.cfg.wf = true) (hs : s.Inv) (e : Event) :
    NextInv (exec (eventRow s.phase e s.utimer) s) := by
  cases hp : s.phase with
  | hunt => exact nextInv_hunt hp hs e
  | collect => exact nextInv_collect hwf hp hs e
  | unlock => exact nextInv_unlock hp hs e

/-- Settles O52: a step holds, or runs the row its event selects in its phase, and every such row keeps the invariants. -/
theorem stepKeepsTheInvariant : Obligations.StepKeepsTheInvariant := by
  intro s t hs h
  obtain ⟨hwf, rfl | ⟨ev, rest, -, hexec⟩⟩ := step_next_event h
  · exact hs.hold
  · exact nextInv_eventRow (s := { s with input := rest }) hwf (hs.withInput rest) (decodeEvent ev) t hexec

/-- Settles O51: RESET leads to HUNT, whose clauses speak of `cnt` and `utimer` alone. -/
theorem invariantHoldsAtReset : Obligations.InvariantHoldsAtReset := (State.inv_of_hunt rfl).mpr ⟨rfl, rfl⟩

/-! ## Inputs that a clock cycle drops (R38) -/

/-- A TICK outside UNLOCK is consumed and changes nothing (40_frame_boundary.md R102, R110). -/
theorem exec_tickRow {p : Phase} (hp : p ≠ .unlock) (u : Nat) (s : State) :
    exec (eventRow p .tick u) s = .next s.quiet := by
  cases p with
  | hunt => rfl
  | collect => rfl
  | unlock => exact absurd rfl hp

/-- Settles O54: these rows are `quiet` (a TICK outside UNLOCK) and `decline` (a byte or EOS in UNLOCK, R203 and R204). -/
theorem droppedInputsAreNoOps : Obligations.DroppedInputsAreNoOps := by
  intro s ev hwf
  refine ⟨fun hp hev => ?_, fun hp hev => ?_⟩ <;> rw [offer_eq ev hwf]
  · rw [hev, exec_tickRow hp]
    rfl
  · rw [hp]
    obtain hev | ⟨b, hev⟩ := hev <;> rw [hev]
    · exact exec_unlockEos _
    · exact exec_unlockByte b _

/-- Settles O47: with no offer to take the step is `hold`. -/
theorem stepWithoutEventHolds : Obligations.StepWithoutEventHolds := fun _ => step_of_no_offer

/-! ## The event of a clock cycle (R38) -/

theorem clockEdge_of_select {s : State} {p : Ports} {e : Event} (h : selectEvent s.phase p = some e) :
    clockEdge p s = offer (encodeEvent e) s := by
  rw [clockEdge, h]
  rfl

theorem clockEdge_of_select_none {s : State} {p : Ports} (hwf : s.cfg.wf = true) (h : selectEvent s.phase p = none) :
    clockEdge p s = .next { s with input := [], accepted := none, record := none } := by
  rw [clockEdge_eq p hwf, h]

theorem selectEvent_of_rst {p : Ports} (hrst : p.rst = true) (ph : Phase) : selectEvent ph p = some .reset := by
  simp [selectEvent, hrst]

/-- Outside UNLOCK a cycle takes a RESET, else a byte, else an EOS, else nothing. -/
theorem selectEvent_of_ne_unlock {ph : Phase} (hp : ph ≠ .unlock) (p : Ports) :
    selectEvent ph p = if p.rst then some .reset else if p.inValid then some (.byte p.inData)
      else if p.inEos then some .eos else none := by
  simp [selectEvent, hp]

/-- Settles O53: each clause is the event `selectEvent` gives for its ports, offered at the edge. -/
theorem clockEdgeTakesTheSelectedEvent : Obligations.ClockEdgeTakesTheSelectedEvent := by
  intro s p
  refine ⟨fun hrst => ?reset, fun hrst hvalid hp => ?byte, fun hrst hvalid heos hp => ?eos, fun hrst htick hp => ?tick,
    fun hrst hvalid heos hp hwf => ?noneOutside, fun hrst htick hp hwf => ?noneInPulse⟩
  case reset => exact clockEdge_of_select (e := .reset) (selectEvent_of_rst hrst _)
  case byte => exact clockEdge_of_select (e := .byte p.inData) (by simp [selectEvent_of_ne_unlock hp, hrst, hvalid])
  case eos => exact clockEdge_of_select (e := .eos) (by simp [selectEvent_of_ne_unlock hp, hrst, hvalid, heos])
  case tick => exact clockEdge_of_select (e := .tick) (by simp [hp, selectEvent_unlock, hrst, htick])
  case noneOutside => exact clockEdge_of_select_none hwf (by simp [selectEvent_of_ne_unlock hp, hrst, hvalid, heos])
  case noneInPulse => exact clockEdge_of_select_none hwf (by simp [hp, selectEvent_unlock, hrst, htick])

/-! ## Reset and the levels (R35, R40, R41) -/

/-- RESET leaves nothing of the state before it but the offers and the parameters. -/
theorem emit_startup_clearRegisters (s : State) :
    (clearRegisters s).emit .startup = { State.reset with input := s.input, cfg := s.cfg } := rfl

/-- Settles O2: the RESET row overwrites whatever the power-up drew. -/
theorem resetAfterPowerOnGivesResetState : Obligations.ResetAfterPowerOnGivesResetState := by
  refine ⟨fun n => ?_, rfl, rfl, rfl⟩
  have hwf : (State.powerOn n).cfg.wf = true := build_wf
  have hev : decodeEvent 0x300#10 = .reset := decodeEvent_encodeEvent .reset
  change offer 0x300#10 (State.powerOn n) = .next State.reset
  rw [offer_eq _ hwf, hev, eventRow_reset, exec_reset, emit_startup_clearRegisters]
  rfl

/-- Settles O32: all three levels are the one comparison of `phase` with UNLOCK. -/
theorem actuationOutputsFollowPhase : Obligations.ActuationOutputsFollowPhase := by
  intro s
  exact ⟨beq_iff_eq, rfl, rfl⟩

end Sys2Proof.Machine
end

section
/-! PROOFS. The table ROM and the other build-time parameters (20_memory.md R50-R52, R62): no row writes them. -/

namespace Sys2Proof.Machine

/-- `TableRead` depends on the build-time parameters alone (R50). -/
theorem tableRead_congr {s t : State} (h : t.cfg = s.cfg) (i : Nat) : t.tableRead i = s.tableRead i := by
  rw [State.tableRead, State.tableRead, h]

/-- Each row is made of operations that write registers and outputs only (R52). -/
theorem exec_next_cfg {i : Instr} {s t : State} (h : exec i s = .next t) : t.cfg = s.cfg := by
  cases i with
  | reset => cases h; exact clearRegisters_cfg s
  | huntStart | huntNoise | huntTick | collectTick => cases h; exact State.quiet_cfg s
  | huntEos => cases h; exact State.emit_cfg _ s
  | collectStopCr | collectStopLf | collectStopEtx | collectStopStx | collectEos => cases h; exact endIncomplete_cfg s
  | collectDigit | collectAlpha | collectOther => cases h; exact charStep_cfg _ s
  | unlockByte | unlockEos => cases h; exact State.decline_cfg s
  | unlockTick => cases h; exact countTick_cfg _
  | unlockTickLast => cases h; exact endPulse_cfg _

/-- A step holds or runs a row on the offers left, and neither writes a parameter. -/
theorem step_next_cfg {s t : State} (h : step s = .next t) : t.cfg = s.cfg := by
  obtain ⟨-, rfl | ⟨ev, rest, -, hexec⟩⟩ := step_next_event h
  · exact State.hold_cfg s
  · exact exec_next_cfg (s := { s with input := rest }) hexec

/-- Settles O50: a step keeps every parameter, and the table is one of them. -/
theorem stepNeverChangesTheTable : Obligations.StepNeverChangesTheTable := fun _ _ h =>
  ⟨step_next_cfg h, tableRead_congr (step_next_cfg h)⟩

end Sys2Proof.Machine
end

section
/-! PROOFS. Event words and decode keys as concatenations of their fields (30_encoding.md R70-R72), and what the decoder answers for
every key: the row of an event in a phase, or the refusal of the reserved phase. -/

namespace Sys2Proof

/-! ## The fields of event words and keys (R70, R72) -/

theorem kindBits_append (k : BitVec 2) (d : Byte) : BitVec.extractLsb' 8 2 (k ++ d : EventWord) = k :=
  BitVec.extractLsb'_append_eq_left

theorem dataBits_append (k : BitVec 2) (d : Byte) : BitVec.extractLsb' 0 8 (k ++ d : EventWord) = d :=
  BitVec.extractLsb'_append_eq_right

theorem phaseBits_append (k : BitVec 2) (w : EventWord) : BitVec.extractLsb' 10 2 (k ++ w : Key) = k :=
  BitVec.extractLsb'_append_eq_left

theorem eventBits_append (k : BitVec 2) (w : EventWord) : BitVec.extractLsb' 0 10 (k ++ w : Key) = w :=
  BitVec.extractLsb'_append_eq_right

theorem decodeEvent_byteWord (b : Byte) : decodeEvent ((0b00#2 : BitVec 2) ++ b) = .byte b := by
  simp [decodeEvent, kindBits_append, dataBits_append]

theorem decodeEvent_eosWord (d : Byte) : decodeEvent ((0b01#2 : BitVec 2) ++ d) = .eos := by
  simp [decodeEvent, kindBits_append]

theorem decodeEvent_tickWord (d : Byte) : decodeEvent ((0b10#2 : BitVec 2) ++ d) = .tick := by
  simp [decodeEvent, kindBits_append]

theorem decodeEvent_resetWord (d : Byte) : decodeEvent ((0b11#2 : BitVec 2) ++ d) = .reset := by
  simp [decodeEvent, kindBits_append]

/-- A two-bit field, case by case. -/
theorem twoBits_cases (k : BitVec 2) : k = 0b00#2 ∨ k = 0b01#2 ∨ k = 0b10#2 ∨ k = 0b11#2 := by
  revert k
  decide

theorem twoBits_and_ones (k : BitVec 2) : k &&& 0b11#2 = k := BitVec.and_allOnes

/-- Every event word is of one of the four kinds, with its data bits (R70). -/
theorem eventWord_cases (w : EventWord) : ∃ d : Byte, w = (0b00#2 : BitVec 2) ++ d ∨ w = (0b01#2 : BitVec 2) ++ d ∨
    w = (0b10#2 : BitVec 2) ++ d ∨ w = (0b11#2 : BitVec 2) ++ d := by
  have hw : w = w.extractLsb' 8 2 ++ w.extractLsb' 0 8 :=
    (BitVec.extractLsb'_append_extractLsb' (w := 2) (len := 8) (x := w)).symm
  refine ⟨w.extractLsb' 0 8, ?_⟩
  obtain h | h | h | h := twoBits_cases (w.extractLsb' 8 2) <;> rw [h] at hw
  · exact .inl hw
  · exact .inr (.inl hw)
  · exact .inr (.inr (.inl hw))
  · exact .inr (.inr (.inr hw))

/-- Every key is the key of an event word in a phase, or has the reserved phase bits (R72, R75). -/
theorem key_cases (key : Key) : ∃ w : EventWord, (∃ p, key = decodeKey p w) ∨ key = (0b11#2 : BitVec 2) ++ w := by
  have hkey : key = key.extractLsb' 10 2 ++ key.extractLsb' 0 10 :=
    (BitVec.extractLsb'_append_extractLsb' (w := 2) (len := 10) (x := key)).symm
  refine ⟨key.extractLsb' 0 10, ?_⟩
  obtain h | h | h | h := twoBits_cases (key.extractLsb' 10 2) <;> rw [h] at hkey
  · exact .inl ⟨.hunt, hkey⟩
  · exact .inl ⟨.collect, hkey⟩
  · exact .inl ⟨.unlock, hkey⟩
  · exact .inr hkey

/-- Settles O41: the kind bits decide, and the canonical words of EOS, TICK and RESET are those with data bits 0. -/
theorem eventWordsDecode : Obligations.EventWordsDecode :=
  ⟨fun b => ⟨rfl, decodeEvent_byteWord b⟩, rfl, rfl, rfl, fun d =>
    ⟨decodeEvent_eosWord d, decodeEvent_tickWord d, decodeEvent_resetWord d⟩⟩

/-! ## The reserved phase (R75) -/

theorem keyFits_iff (key mask pattern : Key) : keyFits key mask pattern = true ↔ key &&& mask = pattern := beq_iff_eq

/-- A row whose fixed phase bits are not the key's does not fit. -/
theorem keyFits_eq_false_of_phaseBits {key mask pattern : Key}
    (h : key.extractLsb' 10 2 &&& mask.extractLsb' 10 2 ≠ pattern.extractLsb' 10 2) : keyFits key mask pattern = false := by
  refine Bool.eq_false_iff.mpr fun hfits => h ?_
  rw [← (keyFits_iff _ _ _).mp hfits, BitVec.extractLsb'_and]

/-- The mask of RESET's row keeps the kind bits of a key (R72, R270). -/
theorem key_and_kindMask (k j : BitVec 2) (d : Byte) :
    (k ++ (j ++ d : EventWord) : Key) &&& 0x300#12 = 0b00#2 ++ (j ++ 0x00#8 : EventWord) := by
  change (k ++ (j ++ d : EventWord) : Key) &&& (0b00#2 ++ (0b11#2 ++ 0x00#8 : EventWord) : Key) = _
  rw [BitVec.and_append, BitVec.and_append, BitVec.and_zero, BitVec.and_zero, twoBits_and_ones]

/-- The mask of the rows of EOS and TICK keeps the phase and kind bits of a key (R71). -/
theorem key_and_phaseKindMask (k j : BitVec 2) (d : Byte) :
    (k ++ (j ++ d : EventWord) : Key) &&& 0xF00#12 = k ++ (j ++ 0x00#8 : EventWord) := by
  change (k ++ (j ++ d : EventWord) : Key) &&& (0b11#2 ++ (0b11#2 ++ 0x00#8 : EventWord) : Key) = _
  rw [BitVec.and_append, BitVec.and_append, BitVec.and_zero, twoBits_and_ones, twoBits_and_ones]

/-- In any phase, RESET's row fits exactly the event words of a RESET (R72, R270). -/
theorem keyFits_reset_iff (k : BitVec 2) (w : EventWord) :
    keyFits (k ++ w) 0x300#12 0x300#12 = true ↔ decodeEvent w = .reset := by
  obtain ⟨d, rfl | rfl | rfl | rfl⟩ := eventWord_cases w <;> rw [keyFits, key_and_kindMask]
  · simp [decodeEvent_byteWord]
  · simp [decodeEvent_eosWord]
  · simp [decodeEvent_tickWord]
  · simp [decodeEvent_resetWord]

/-- Settles O40: only the row of RESET leaves the phase bits open, and every other row fixes phase bits that are not 0b11. -/
theorem reservedPhaseKeysAreRefused : Obligations.ReservedPhaseKeysAreRefused := by
  intro ev u
  have hphase : BitVec.extractLsb' 10 2 ((0b11#2 : BitVec 2) ++ ev : Key) = 0b11#2 := phaseBits_append _ _
  simp [decode, keyFits_reset_iff, keyFits_eq_false_of_phaseBits, hphase]

end Sys2Proof
end

section
/-! PROOFS. The byte classes of COLLECT (30_encoding.md R78), and the encoder as the key of one event in one phase: the decoder and
the encoder undo each other on it (R71-R74). -/

namespace Sys2Proof

open Sys2Proof.Machine

/-! ## The bytes of the character rows (41_hex_converter.md R120, R121) -/

theorem toNat_digitByte (d : BitVec 4) : (digitByte d).toNat = 0x30 + d.toNat := by
  have h : ∀ n : Fin 16, (digitByte (BitVec.ofFin n)).toNat = 0x30 + n.val := by decide
  exact h d.toFin

theorem toNat_alphaByte (a : BitVec 3) : (alphaByte a).toNat = 0x40 + a.toNat := by
  have h : ∀ n : Fin 8, (alphaByte (BitVec.ofFin n)).toNat = 0x40 + n.val := by decide
  exact h a.toFin

theorem digitField_digitByte (d : BitVec 4) : (digitByte d).extractLsb' 0 4 = d := BitVec.extractLsb'_append_eq_right

theorem alphaField_alphaByte (a : BitVec 3) : (alphaByte a).extractLsb' 0 3 = a := BitVec.extractLsb'_append_eq_right

theorem toNat_digitField {b : Byte} (h : 0x30 ≤ b.toNat ∧ b.toNat ≤ 0x39) : (b.extractLsb' 0 4).toNat = b.toNat - 0x30 := by
  rw [BitVec.extractLsb'_toNat, Nat.shiftRight_zero]
  omega

theorem toNat_alphaField {b : Byte} (h : 0x41 ≤ b.toNat ∧ b.toNat ≤ 0x46) : (b.extractLsb' 0 3).toNat = b.toNat - 0x40 := by
  rw [BitVec.extractLsb'_toNat, Nat.shiftRight_zero]
  omega

theorem digitByte_digitField {b : Byte} (h : 0x30 ≤ b.toNat ∧ b.toNat ≤ 0x39) : digitByte (b.extractLsb' 0 4) = b := by
  apply BitVec.eq_of_toNat_eq
  rw [toNat_digitByte, toNat_digitField h]
  omega

theorem alphaByte_alphaField {b : Byte} (h : 0x41 ≤ b.toNat ∧ b.toNat ≤ 0x46) : alphaByte (b.extractLsb' 0 3) = b := by
  apply BitVec.eq_of_toNat_eq
  rw [toNat_alphaByte, toNat_alphaField h]
  omega

/-! ## The row of a byte in COLLECT, class by class (R78) -/

theorem mem_stopSet_iff (b : Byte) : b ∈ stopSet ↔ b = 0x0D#8 ∨ b = 0x0A#8 ∨ b = 0x03#8 ∨ b = 0x02#8 := by
  simp [stopSet]

theorem lt_of_mem_stopSet {b : Byte} (h : b ∈ stopSet) : b.toNat < 0x30 := by
  obtain rfl | rfl | rfl | rfl := (mem_stopSet_iff b).mp h <;> decide

/-- Past the stop bytes the classes are the two ranges of character codes. -/
theorem collectByteRow_of_notMem {b : Byte} (h : b ∉ stopSet) :
    collectByteRow b = if 0x30 ≤ b.toNat ∧ b.toNat ≤ 0x39 then .collectDigit (b.extractLsb' 0 4)
      else if 0x41 ≤ b.toNat ∧ b.toNat ≤ 0x46 then .collectAlpha (b.extractLsb' 0 3) else .collectOther b := by
  simp only [mem_stopSet_iff, not_or] at h
  obtain ⟨hcr, hlf, hetx, hstx⟩ := h
  simp [collectByteRow, hcr, hlf, hetx, hstx, BitVec.ule]

theorem collectByteRow_of_mem {b : Byte} (h : b ∈ stopSet) :
    collectByteRow b ∈ [Instr.collectStopCr, .collectStopLf, .collectStopEtx, .collectStopStx] := by
  obtain rfl | rfl | rfl | rfl := (mem_stopSet_iff b).mp h <;> decide

theorem collectByteRow_of_digit {b : Byte} (h : 0x30 ≤ b.toNat ∧ b.toNat ≤ 0x39) :
    collectByteRow b = .collectDigit (b.extractLsb' 0 4) := by
  have hstop : b ∉ stopSet := fun hb => by have := lt_of_mem_stopSet hb; omega
  rw [collectByteRow_of_notMem hstop, if_pos h]

theorem collectByteRow_of_alpha {b : Byte} (h : 0x41 ≤ b.toNat ∧ b.toNat ≤ 0x46) :
    collectByteRow b = .collectAlpha (b.extractLsb' 0 3) := by
  have hstop : b ∉ stopSet := fun hb => by have := lt_of_mem_stopSet hb; omega
  rw [collectByteRow_of_notMem hstop, if_neg (by omega), if_pos h]

theorem collectByteRow_of_other {b : Byte} (hstop : b ∉ stopSet) (hdigit : ¬(0x30 ≤ b.toNat ∧ b.toNat ≤ 0x39))
    (halpha : ¬(0x41 ≤ b.toNat ∧ b.toNat ≤ 0x46)) : collectByteRow b = .collectOther b := by
  rw [collectByteRow_of_notMem hstop, if_neg hdigit, if_neg halpha]

/-- The key of a byte in COLLECT selects its class's row, whatever the timer. -/
theorem decode_collectByte (b : Byte) (u : Nat) :
    decode (decodeKey .collect (encodeEvent (.byte b))) u = .ok (collectByteRow b) := by
  rw [decode_event, decodeEvent_encodeEvent]
  rfl

/-- Settles O10: the decoded row is `collectByteRow`, read class by class; the others are counted. -/
theorem byteClassesInCollect : Obligations.ByteClassesInCollect := by
  refine ⟨fun b u => ⟨collectByteRow b, decode_collectByte b u, collectByteRow_of_mem, fun h => ?digit, fun h => ?alpha,
    collectByteRow_of_other⟩, by decide +kernel⟩
  case digit => exact ⟨_, collectByteRow_of_digit h, toNat_digitField h⟩
  case alpha => exact ⟨_, collectByteRow_of_alpha h, toNat_alphaField h⟩

/-! ## The instructions admitted by a class (opcode_table.json) -/

theorem wf_huntNoise_iff (b : Byte) : (Instr.huntNoise b).wf = true ↔ b ≠ 0x02#8 := by simp [Instr.wf]

theorem wf_collectDigit_iff (d : BitVec 4) : (Instr.collectDigit d).wf = true ↔ d.toNat ≤ 9 := by
  simp [Instr.wf, BitVec.ule]

theorem wf_collectAlpha_iff (a : BitVec 3) : (Instr.collectAlpha a).wf = true ↔ 1 ≤ a.toNat ∧ a.toNat ≤ 6 := by
  have h : ∀ n : Fin 8, (Instr.collectAlpha (BitVec.ofFin n)).wf = true ↔ 1 ≤ n.val ∧ n.val ≤ 6 := by decide
  exact h a.toFin

theorem wf_collectOther_iff (b : Byte) : (Instr.collectOther b).wf = true ↔
    b ∉ stopSet ∧ ¬(0x30 ≤ b.toNat ∧ b.toNat ≤ 0x39) ∧ ¬(0x41 ≤ b.toNat ∧ b.toNat ≤ 0x46) := by
  simp only [Instr.wf, mem_stopSet_iff, BitVec.ule, bne_iff_ne, Bool.and_eq_true, Bool.not_eq_true', ← Bool.not_eq_true,
    decide_eq_true_eq, not_or, and_assoc, ne_eq, BitVec.toNat_ofNat, Nat.reducePow, Nat.reduceMod]

/-! ## The encoder as phase and event (R72) -/

/-- The phase in which the encoder writes an instruction's key; RESET's row admits any, and the encoder writes HUNT (log 18). -/
def Instr.keyPhase : Instr → Phase
  | .reset | .huntStart | .huntNoise _ | .huntEos | .huntTick => .hunt
  | .collectStopCr | .collectStopLf | .collectStopEtx | .collectStopStx | .collectDigit _ | .collectAlpha _
  | .collectOther _ | .collectEos | .collectTick => .collect
  | .unlockByte _ | .unlockEos | .unlockTick | .unlockTickLast => .unlock

/-- The event that an instruction's row takes. -/
def Instr.keyEvent : Instr → Event
  | .reset => .reset
  | .huntStart | .collectStopStx => .byte 0x02#8
  | .collectStopCr => .byte 0x0D#8
  | .collectStopLf => .byte 0x0A#8
  | .collectStopEtx => .byte 0x03#8
  | .collectDigit d => .byte (digitByte d)
  | .collectAlpha a => .byte (alphaByte a)
  | .huntNoise b | .collectOther b | .unlockByte b => .byte b
  | .huntEos | .collectEos | .unlockEos => .eos
  | .huntTick | .collectTick | .unlockTick | .unlockTickLast => .tick

/-- The phase bits and the zero kind bits of a BYTE's key are one four-bit field. -/
theorem decodeKey_byte (p : Phase) (b : Byte) : decodeKey p (encodeEvent (.byte b)) = (p.bits ++ 0b00#2 : BitVec 4) ++ b := by
  have h := BitVec.append_assoc (x₁ := p.bits) (x₂ := 0b00#2) (x₃ := b)
  exact (h.trans (BitVec.cast_eq rfl _)).symm

theorem encode_collectDigit (d : BitVec 4) : encode (.collectDigit d) = 0x4#4 ++ digitByte d := by
  have h := BitVec.append_assoc (x₁ := 0x4#4) (x₂ := 0x3#4) (x₃ := d)
  exact h.trans (BitVec.cast_eq rfl _)

theorem encode_collectAlpha (a : BitVec 3) : encode (.collectAlpha a) = 0x4#4 ++ alphaByte a := by
  have h := BitVec.append_assoc (x₁ := 0x4#4) (x₂ := 0b01000#5) (x₃ := a)
  exact h.trans (BitVec.cast_eq rfl _)

theorem encode_eq_decodeKey (i : Instr) : encode i = decodeKey i.keyPhase (encodeEvent i.keyEvent) := by
  cases i with
  | huntNoise b => exact (decodeKey_byte .hunt b).symm
  | collectDigit d => exact (encode_collectDigit d).trans (decodeKey_byte .collect _).symm
  | collectAlpha a => exact (encode_collectAlpha a).trans (decodeKey_byte .collect _).symm
  | collectOther b => exact (decodeKey_byte .collect b).symm
  | unlockByte b => exact (decodeKey_byte .unlock b).symm
  | _ => rfl

/-! ## Decoding what was encoded -/

/-- The row that an instruction's event selects in its phase is the instruction, when its operand and timer are ones the row
admits. -/
theorem eventRow_keyEvent {i : Instr} {u : Nat} (hwf : i.wf = true) (hu : i.timerOk u = true) :
    eventRow i.keyPhase i.keyEvent u = i := by
  cases i with
  | huntNoise b => exact if_neg ((wf_huntNoise_iff b).mp hwf)
  | collectDigit d =>
    have hle := (wf_collectDigit_iff d).mp hwf
    have hrow := collectByteRow_of_digit (b := digitByte d) (by rw [toNat_digitByte]; omega)
    rwa [digitField_digitByte] at hrow
  | collectAlpha a =>
    have hle := (wf_collectAlpha_iff a).mp hwf
    have hrow := collectByteRow_of_alpha (b := alphaByte a) (by rw [toNat_alphaByte]; omega)
    rwa [alphaField_alphaByte] at hrow
  | collectOther b =>
    obtain ⟨hstop, hdigit, halpha⟩ := (wf_collectOther_iff b).mp hwf
    exact collectByteRow_of_other hstop hdigit halpha
  | unlockTick => exact if_pos (of_decide_eq_true hu)
  | unlockTickLast =>
    have hu : u = 1 := of_decide_eq_true hu
    exact if_neg (by omega)
  | reset | huntStart | huntEos | huntTick | collectStopCr | collectStopLf | collectStopEtx | collectStopStx | collectEos
  | collectTick | unlockByte | unlockEos => rfl

/-- Settles O37: the key of an instruction is that of its event in its phase, which the decoder reads back as the event's row. -/
theorem decodeOfEncodeIsTheInstruction : Obligations.DecodeOfEncodeIsTheInstruction := by
  intro i u hwf hu
  calc decode (encode i) u
      = decode (decodeKey i.keyPhase (encodeEvent i.keyEvent)) u := by rw [encode_eq_decodeKey]
    _ = .ok (eventRow i.keyPhase i.keyEvent u) := by rw [decode_event, decodeEvent_encodeEvent]
    _ = .ok i := by rw [eventRow_keyEvent hwf hu]

/-! ## Encoding what was decoded -/

/-- The row of a COLLECT byte is admitted, is written in COLLECT, and takes that byte. -/
theorem collectByteRow_spec (b : Byte) : (collectByteRow b).wf = true ∧ (collectByteRow b).keyPhase = .collect ∧
    (collectByteRow b).keyEvent = .byte b := by
  by_cases hstop : b ∈ stopSet
  · obtain rfl | rfl | rfl | rfl := (mem_stopSet_iff b).mp hstop <;> decide
  by_cases hdigit : 0x30 ≤ b.toNat ∧ b.toNat ≤ 0x39
  · rw [collectByteRow_of_digit hdigit, wf_collectDigit_iff, toNat_digitField hdigit]
    exact ⟨by omega, rfl, congrArg Event.byte (digitByte_digitField hdigit)⟩
  by_cases halpha : 0x41 ≤ b.toNat ∧ b.toNat ≤ 0x46
  · rw [collectByteRow_of_alpha halpha, wf_collectAlpha_iff, toNat_alphaField halpha]
    exact ⟨by omega, rfl, congrArg Event.byte (alphaByte_alphaField halpha)⟩
  · rw [collectByteRow_of_other hstop hdigit halpha, wf_collectOther_iff]
    exact ⟨⟨hstop, hdigit, halpha⟩, rfl, rfl⟩

/-- Every row that an event selects is admitted (R73). -/
theorem wf_eventRow (p : Phase) (e : Event) (u : Nat) : (eventRow p e u).wf = true := by
  cases e with
  | byte b =>
    cases p with
    | hunt =>
      rw [eventRow_hunt_byte]
      split
      · rfl
      · exact (wf_huntNoise_iff b).mpr ‹_›
    | collect =>
      obtain ⟨hwf, -, -⟩ := collectByteRow_spec b
      exact hwf
    | unlock => rfl
  | eos => cases p <;> rfl
  | tick =>
    cases p with
    | hunt | collect => rfl
    | unlock => rw [eventRow_unlock_tick]; split <;> rfl
  | reset => rw [eventRow_reset]; rfl

/-- An event's row is written in the event's phase and takes that event, but for RESET, whose row has no phase. -/
theorem keyPhase_keyEvent_eventRow (p : Phase) {e : Event} (u : Nat) (he : e ≠ .reset) :
    (eventRow p e u).keyPhase = p ∧ (eventRow p e u).keyEvent = e := by
  cases e with
  | byte b =>
    cases p with
    | hunt =>
      rw [eventRow_hunt_byte]
      split
      · exact ⟨rfl, by rw [‹b = _›]; rfl⟩
      · exact ⟨rfl, rfl⟩
    | collect =>
      obtain ⟨-, hphase, hevent⟩ := collectByteRow_spec b
      exact ⟨hphase, hevent⟩
    | unlock => exact ⟨rfl, rfl⟩
  | eos => cases p <;> exact ⟨rfl, rfl⟩
  | tick =>
    cases p with
    | hunt | collect => exact ⟨rfl, rfl⟩
    | unlock => rw [eventRow_unlock_tick]; split <;> exact ⟨rfl, rfl⟩
  | reset => exact absurd rfl he

theorem encode_eventRow (p : Phase) {e : Event} (u : Nat) (he : e ≠ .reset) :
    encode (eventRow p e u) = decodeKey p (encodeEvent e) := by
  obtain ⟨hphase, hevent⟩ := keyPhase_keyEvent_eventRow p u he
  rw [encode_eq_decodeKey, hphase, hevent]

theorem eventBits_decodeKey (p : Phase) (w : EventWord) : (decodeKey p w).extractLsb' 0 10 = w := eventBits_append p.bits w

/-- Settles O38: a key that decodes is one of a phase, whose row keeps phase and event, or is a RESET of the reserved phase. -/
theorem encodeOfDecodeIsTheKey : Obligations.EncodeOfDecodeIsTheKey := by
  intro key u i h
  obtain ⟨w, ⟨p, rfl⟩ | rfl⟩ := key_cases key
  · rw [decode_event, Except.ok.injEq] at h
    subst h
    rw [eventBits_decodeKey]
    refine ⟨wf_eventRow p _ u, ?_⟩
    obtain ⟨d, rfl | rfl | rfl | rfl⟩ := eventWord_cases w
    · rw [decodeEvent_byteWord]
      exact encode_eventRow p u (by simp)
    · rw [decodeEvent_eosWord]
      exact (encode_eventRow p u (by simp)).trans (key_and_phaseKindMask p.bits 0b01#2 d).symm
    · rw [decodeEvent_tickWord]
      exact (encode_eventRow p u (by simp)).trans (key_and_phaseKindMask p.bits 0b10#2 d).symm
    · rw [decodeEvent_resetWord, eventRow_reset]
      exact (key_and_kindMask p.bits 0b11#2 d).symm
  · rw [reservedPhaseKeysAreRefused] at h
    split at h
    · cases h
      rw [eventBits_append, ‹decodeEvent w = .reset›]
      exact ⟨rfl, ((keyFits_iff _ _ _).mp ((keyFits_reset_iff 0b11#2 w).mpr ‹_›)).symm⟩
    · cases h

/-! ## Single keys, and the step (R73, 00_scope.md R17) -/

/-- Settles O36: the decoder run on each key. -/
theorem writtenOutKeysDecode : Obligations.WrittenOutKeysDecode := ⟨rfl, rfl, rfl, rfl, rfl, rfl, rfl, rfl⟩

/-- Settles O46: the step takes the first offer and decodes it in the state's own phase and timer. -/
theorem stepRunsTheDecodedInstruction : Obligations.StepRunsTheDecodedInstruction := by
  intro s ev rest i hwf hin hdec
  have htake : s.takeOffer = some (ev, { s with input := rest }) := by rw [State.takeOffer, hin]
  have hoffer : s.decodeOffer ev = .ok i := hdec
  simp only [step, hwf, htake, hoffer, if_true]

end Sys2Proof
end

section
/-! PROOFS. The opcode table read as data (30_encoding.md R73): row by row, the table's guard is the decoder's. -/

namespace Sys2Proof

/-- The first row of `rows` that accepts a key and timer bears the mnemonic of the decoder's answer, and there is none when the
decoder refuses. -/
def Follows (rows : List OpRow) (key : Key) (u : Nat) (d : Except Undecodable Instr) : Prop :=
  (rows.find? fun row => rowSelects row key u).map OpRow.mnemonic = d.toOption.map Instr.mnemonic

theorem Follows.eq {rows : List OpRow} {key : Key} {u : Nat} {d : Except Undecodable Instr} (h : Follows rows key u d) :
    (rows.find? fun row => rowSelects row key u).map OpRow.mnemonic = d.toOption.map Instr.mnemonic := h

/-- One row of the table is one branch of the decoder, when both have the same guard. -/
theorem Follows.cons {row : OpRow} {rows : List OpRow} {key : Key} {u : Nat} {g : Bool} {i : Instr}
    {d : Except Undecodable Instr} (hguard : rowSelects row key u = g) (hname : row.mnemonic = i.mnemonic)
    (hrest : Follows rows key u d) : Follows (row :: rows) key u (if g then .ok i else d) := by
  unfold Follows
  cases g with
  | true => simp [hguard, hname, Except.toOption]
  | false => simpa [hguard] using hrest.eq

/-! ## The guards of the rows -/

theorem rowSelects_of_noField (name : String) (pattern mask key : Key) (u : Nat) :
    rowSelects ⟨name, pattern, mask, 0, 0, 0, 0, none⟩ key u = keyFits key mask pattern := by
  simp [rowSelects]

theorem rowSelects_digit (key : Key) (u : Nat) :
    rowSelects ⟨"COLLECT.DIGIT", 0x430#12, 0xFF0#12, 0x00F#12, 0, 9, 0, none⟩ key u =
      (keyFits key 0xFF0#12 0x430#12 && (key.extractLsb' 0 4).ule 9#4) := by
  have hfield : (key &&& 0x00F#12).toNat = (key.extractLsb' 0 4).toNat := by
    simp [BitVec.toNat_and, BitVec.extractLsb'_toNat, Nat.and_two_pow_sub_one_eq_mod _ 4]
  simp [rowSelects, BitVec.ule, hfield]

theorem rowSelects_alpha (key : Key) (u : Nat) :
    rowSelects ⟨"COLLECT.ALPHA", 0x440#12, 0xFF8#12, 0x007#12, 1, 6, 0, none⟩ key u =
      (keyFits key 0xFF8#12 0x440#12 && (1#3).ule (key.extractLsb' 0 3) && (key.extractLsb' 0 3).ule 6#3) := by
  have hfield : (key &&& 0x007#12).toNat = (key.extractLsb' 0 3).toNat := by
    simp [BitVec.toNat_and, BitVec.extractLsb'_toNat, Nat.and_two_pow_sub_one_eq_mod _ 3]
  simp [rowSelects, BitVec.ule, hfield]

/-- The last two rows share a key and are told apart by the timer, which R30 keeps above 0 in UNLOCK. -/
theorem follows_unlockTicks {key : Key} {u : Nat} (hu : key &&& 0xF00#12 = 0xA00#12 → 1 ≤ u) :
    Follows [⟨"UNLOCK.TICK", 0xA00#12, 0xF00#12, 0, 0, 0, 2, none⟩,
        ⟨"UNLOCK.TICK_LAST", 0xA00#12, 0xF00#12, 0, 0, 0, 1, some 1⟩] key u
      (if keyFits key 0xF00#12 0xA00#12 then if 1 < u then .ok .unlockTick else .ok .unlockTickLast
        else .error .reservedPhase) := by
  cases hfits : keyFits key 0xF00#12 0xA00#12 with
  | false => simp [Follows, rowSelects, hfits, Except.toOption]
  | true =>
    have hpos := hu ((keyFits_iff _ _ _).mp hfits)
    by_cases hgt : 1 < u
    · simp [Follows, rowSelects, hfits, hgt, show 2 ≤ u from hgt, Except.toOption, Instr.mnemonic]
    · have hone : u = 1 := by omega
      subst hone
      simp [Follows, rowSelects, hfits, Except.toOption, Instr.mnemonic]

/-! ## The table -/

theorem follows_opcodeTable {key : Key} {u : Nat} (hu : key &&& 0xF00#12 = 0xA00#12 → 1 ≤ u) :
    Follows opcodeTable key u (decode key u) := by
  unfold opcodeTable decode
  iterate 9 refine .cons (rowSelects_of_noField ..) rfl ?_
  refine .cons (rowSelects_digit ..) rfl ?_
  refine .cons (rowSelects_alpha ..) rfl ?_
  iterate 5 refine .cons (rowSelects_of_noField ..) rfl ?_
  exact follows_unlockTicks hu

/-- Only the keys of UNLOCK have its phase bits. -/
theorem eq_unlock_of_tickKey {p : Phase} {ev : EventWord} (h : decodeKey p ev &&& 0xF00#12 = 0xA00#12) : p = .unlock := by
  have hbits : p.bits &&& 0b11#2 = 0b10#2 := by
    have hphase := congrArg (BitVec.extractLsb' 10 2) h
    rwa [decodeKey, BitVec.extractLsb'_and, phaseBits_append] at hphase
  cases p with
  | hunt => exact absurd hbits (by decide)
  | collect => exact absurd hbits (by decide)
  | unlock => rfl

/-- Settles O39: the table is followed row by row, and a key of a phase is never refused by the decoder. -/
theorem decoderFollowsOpcodeTable : Obligations.DecoderFollowsOpcodeTable := by
  refine ⟨fun key u hu => follows_opcodeTable hu, fun p ev u hu => ?_⟩
  have hrow : (selectRow (decodeKey p ev) u).map OpRow.mnemonic = (decode (decodeKey p ev) u).toOption.map Instr.mnemonic :=
    follows_opcodeTable fun h => hu (eq_unlock_of_tickKey h)
  rw [← Option.isSome_map (f := OpRow.mnemonic), hrow, decode_event]
  rfl

end Sys2Proof
end

section
/-! PROOFS. The record word (30_encoding.md R80-R83) as a number: the sum of its fields at their places, from which each field is
read back. -/

namespace Sys2Proof

open Sys2Proof.Machine

/-! ## The word as a sum of fields (R80) -/

theorem toNat_append_eq_add {m n : Nat} (x : BitVec m) (y : BitVec n) : (x ++ y).toNat = x.toNat * 2 ^ n + y.toNat := by
  rw [BitVec.toNat_append, ← Nat.shiftLeft_add_eq_or_of_lt y.isLt, Nat.shiftLeft_eq]

theorem toNat_recordWord (iw : Nat) (r : Record) :
    (recordWord iw r).toNat = r.kindCode.toNat + r.sep.toNat * 2 ^ 3 + r.cntField.toNat * 2 ^ 4 + r.idField.toNat * 2 ^ 8 +
      r.rxField.toNat * 2 ^ 48 + r.calcField.toNat * 2 ^ 56 + r.idxField % 2 ^ iw * 2 ^ 64 := by
  simp only [recordWord, toNat_append_eq_add, BitVec.toNat_ofBool, BitVec.toNat_ofNat]
  omega

theorem toNat_packId (t : TagId) : (packId t).toNat =
    (((t.b0.toNat * 256 + t.b1.toNat) * 256 + t.b2.toNat) * 256 + t.b3.toNat) * 256 + t.b4.toNat := by
  simp only [packId, toNat_append_eq_add, Nat.reducePow]

/-- Settles O42: the sum of fields with the fields of each kind (R81, R82). -/
theorem recordWordFields : Obligations.RecordWordFields := by
  intro iw t rx c n i hi
  dsimp only
  rw [← toNat_packId]
  refine ⟨?_, ?_, ?_, ?_, ?_, ?_⟩ <;>
  · simp only [toNat_recordWord, Record.kindCode, Record.sep, Record.cntField, Record.idField, Record.rxField,
      Record.calcField, Record.idxField, Nat.mod_eq_of_lt hi, Nat.zero_mod, BitVec.toNat_ofNat, Bool.toNat_true,
      Bool.toNat_false]
    omega

/-! ## The fields read back from the word -/

theorem toNat_extractLsb'_eq_div_mod {n : Nat} (w : BitVec n) (start len : Nat) :
    (w.extractLsb' start len).toNat = w.toNat / 2 ^ start % 2 ^ len := by
  rw [BitVec.extractLsb'_toNat, Nat.shiftRight_eq_div_pow]

/-- Each field of R80 is in its place. -/
theorem recordWord_fields (iw : Nat) (r : Record) :
    (recordWord iw r).extractLsb' 0 3 = r.kindCode ∧ (recordWord iw r).extractLsb' 4 4 = r.cntField ∧
    (recordWord iw r).extractLsb' 8 40 = r.idField ∧ (recordWord iw r).extractLsb' 48 8 = r.rxField ∧
    (recordWord iw r).extractLsb' 56 8 = r.calcField ∧ (recordWord iw r).toNat / 2 ^ 64 = r.idxField % 2 ^ iw := by
  have hkind := r.kindCode.isLt
  have hsep := r.sep.toNat_le
  have hcnt := r.cntField.isLt
  have hid := r.idField.isLt
  have hrx := r.rxField.isLt
  have hcalc := r.calcField.isLt
  refine ⟨?_, ?_, ?_, ?_, ?_, ?idx⟩
  case idx => rw [toNat_recordWord]; omega
  all_goals
    apply BitVec.eq_of_toNat_eq
    rw [toNat_extractLsb'_eq_div_mod, toNat_recordWord]
    omega

/-- The kind and fields of a record's word spell the record. -/
theorem readRecordWord_recordWord {iw : Nat} {r : Record} (h : r.idxField < 2 ^ iw) :
    readRecordWord iw (recordWord iw r) = some r := by
  obtain ⟨hkind, hcnt, hid, hrx, hcalc, hidx⟩ := recordWord_fields iw r
  rw [Nat.mod_eq_of_lt h] at hidx
  simp only [readRecordWord, hkind, hcnt, hid, hrx, hcalc, hidx]
  cases r with
  | startup | incomplete | unlockDone => rfl
  | cksumError t | granted t | denied t => simp [Record.kindCode, Record.idField, Record.rxField, Record.calcField,
      Record.idxField, unpackId_packId]

/-- Settles O43: the word of the record read is the word it was read from. -/
theorem recordWordRoundTrip : Obligations.RecordWordRoundTrip := by
  intro iw r h
  simp [decodeRecordWord, readRecordWord_recordWord h]

/-! ## The reserved kinds (R83) -/

theorem kindCode_lt (r : Record) : r.kindCode.toNat < 6 := by
  cases r <;> simp [Record.kindCode]

theorem toNat_kindBits {n : Nat} (w : BitVec n) : (w.extractLsb' 0 3).toNat = w.toNat % 8 := by simp

theorem readRecordWord_of_reserved {iw : Nat} {w : BitVec (iw + 64)} (h : w.toNat % 8 = 6 ∨ w.toNat % 8 = 7) :
    readRecordWord iw w = none := by
  obtain h | h := h <;> simp only [readRecordWord, toNat_kindBits, h]

/-- Settles O44: the kind is the word's three lowest bits, no record's is above 5, and the reader has no record for 6 and 7. -/
theorem reservedRecordKindsAreRefused : Obligations.ReservedRecordKindsAreRefused := by
  refine ⟨fun c w h => ?_, fun iw r => ?_⟩
  · simp [sinkWord, decodeRecordWord, readRecordWord_of_reserved h]
  · obtain ⟨hkind, -⟩ := recordWord_fields iw r
    calc (recordWord iw r).toNat % 8
        = ((recordWord iw r).extractLsb' 0 3).toNat := (toNat_kindBits _).symm
      _ = r.kindCode.toNat := by rw [hkind]
      _ < 6 := kindCode_lt r

end Sys2Proof
end

section
/-! PROOFS. The FRAME stimulus (30_encoding.md R85) as text: its characters are the bytes of the frame of R76. -/

namespace Sys2Proof.Machine

/-- The hex digit of a nibble as text has the code that the frame carries for it (00_scope.md R10). -/
theorem charEvent_hexDigit (n : BitVec 4) : charEvent (hexDigit n) = encodeEvent (.byte (hexCharByte n)) := by
  have h : ∀ k : Fin 16, charEvent (hexDigit (BitVec.ofFin k)) = encodeEvent (.byte (hexCharByte (BitVec.ofFin k))) := by
    decide
  exact h n.toFin

theorem map_charEvent_hexByte (b : Byte) :
    (hexByte b).toList.map charEvent = (hexPair b).map fun x => encodeEvent (.byte x) := by
  simp [hexByte, hexPair, charEvent_hexDigit]

theorem map_charEvent_hexId (t : TagId) :
    (hexId t).toList.map charEvent = ((idBytes t).flatMap hexPair).map fun x => encodeEvent (.byte x) := by
  simp [hexId, idBytes, map_charEvent_hexByte]

theorem length_frameEvents (t : TagId) (c : Byte) : (frameEvents t c).length = 13 := rfl

/-- Settles O55: byte by byte, the two digits of the text are the two characters of the frame. -/
theorem frameTextSpellsTheFrame : Obligations.FrameTextSpellsTheFrame := by
  intro t c
  refine ⟨?_, length_frameEvents t c⟩
  simp only [expandStimulus, frameEvents, frameBytes, String.toList_append, List.map_append, List.map_cons,
    map_charEvent_hexId, map_charEvent_hexByte]

end Sys2Proof.Machine
end

section
/-! PROOFS. The records that a step emits (30_encoding.md R82): what each says of the checksums and the table, and that the sink
reads them from their words. -/

namespace Sys2Proof.Machine

/-- What a record of the block says of the two checksums (R82) and of its table index (20_memory.md R51). -/
def FitsKind (c : Config) : Record → Prop
  | .cksumError _ rx computed => rx ≠ computed
  | .granted _ rx computed idx => rx = computed ∧ idx < c.table.length
  | .denied _ rx computed => rx = computed
  | .startup | .incomplete _ | .unlockDone => True

/-- If the outcome is a next state with a record, the record fits its kind. -/
def EmitsFitting (c : Config) (o : Host.Outcome State Fault Refusal) : Prop :=
  ∀ t r, o = .next t → t.record = some r → FitsKind c r

theorem emitsFitting_of_none {c : Config} {t : State} (h : t.record = none) : EmitsFitting c (.next t) := by
  rintro _ r ⟨⟩ hr
  rw [h] at hr
  cases hr

theorem emitsFitting_of_some {c : Config} {t : State} {r : Record} (h : t.record = some r) (hr : FitsKind c r) :
    EmitsFitting c (.next t) := by
  rintro _ r' ⟨⟩ hr'
  rw [h] at hr'
  cases hr'
  exact hr

/-- The completion step compares the checksums before it chooses the kind, and its index is the arbiter's (R181-R184). -/
theorem emitsFitting_completeFrame (b : Byte) (s : State) : EmitsFitting s.cfg (.next (completeFrame b s)) := by
  obtain ⟨hne, h⟩ | ⟨i, heq, hi, h⟩ | ⟨heq, -, h⟩ := completeFrame_cases b s <;> rw [h]
  · exact emitsFitting_of_some (completeInvalid_record b s) hne
  · exact emitsFitting_of_some (completeGranted_record b i s) ⟨heq, lookup_lt hi⟩
  · exact emitsFitting_of_some (completeDenied_record b s) heq

/-- Only the character that completes the frame emits a record (R123, R124). -/
theorem emitsFitting_charStep (v : Byte) (s : State) : EmitsFitting s.cfg (.next (charStep v s)) := by
  obtain ⟨-, h⟩ | ⟨j, -, -, h⟩ | ⟨-, -, h⟩ := charStep_cases v s <;> rw [h]
  · exact emitsFitting_of_none (highNibble_record v s)
  · exact emitsFitting_of_none (storeIdByte_record j _ s)
  · exact emitsFitting_completeFrame _ { s with rx := assemble s.hi v }

theorem emitsFitting_exec (i : Instr) (s : State) : EmitsFitting s.cfg (exec i s) := by
  cases i with
  | reset => exact emitsFitting_of_some (State.emit_record .startup _) trivial
  | huntStart => exact emitsFitting_of_none (State.quiet_record s)
  | huntNoise | huntTick | collectTick => exact emitsFitting_of_none (State.quiet_record s)
  | huntEos => exact emitsFitting_of_some (State.emit_record (.incomplete 0#4) s) trivial
  | collectStopCr | collectStopLf | collectStopEtx | collectStopStx | collectEos =>
    exact emitsFitting_of_some (endIncomplete_record s) trivial
  | collectDigit | collectAlpha | collectOther => exact emitsFitting_charStep _ s
  | unlockByte | unlockEos => exact emitsFitting_of_none (State.decline_record s)
  | unlockTick => exact emitsFitting_of_none (t := countTick s.quiet) (State.quiet_record s)
  | unlockTickLast => exact emitsFitting_of_some (t := endPulse (s.emit .unlockDone)) (State.emit_record .unlockDone s) trivial

theorem emitsFitting_step (s : State) : EmitsFitting s.cfg (step s) := by
  intro t r h hr
  obtain ⟨-, rfl | ⟨ev, rest, -, hexec⟩⟩ := step_next_event h
  · exact emitsFitting_of_none (State.hold_record s) _ r rfl hr
  · exact emitsFitting_exec _ { s with input := rest } t r hexec hr

/-! ## The sink reads such a record from its word (46_diagnostic_sink.md) -/

theorem FitsKind.exists_sinkLines {c : Config} {r : Record} (h : FitsKind c r) : ∃ lines, sinkLines c r = .ok lines := by
  cases r with
  | startup => exact ⟨_, sinkLines_startup c⟩
  | incomplete n => exact ⟨_, sinkLines_incomplete c n⟩
  | cksumError t rx x => exact ⟨_, sinkLines_cksumError c t rx x⟩
  | granted t rx x i =>
    obtain ⟨-, hi⟩ := h
    exact ⟨_, sinkLines_granted t rx x (List.getElem?_eq_getElem hi)⟩
  | denied t rx x => exact ⟨_, sinkLines_denied c t rx x⟩
  | unlockDone => exact ⟨_, sinkLines_unlockDone c⟩

theorem FitsKind.idxField_lt {c : Config} {r : Record} (h : FitsKind c r) : r.idxField < 2 ^ indexWidth c.table.length := by
  cases r with
  | granted t rx x i =>
    obtain ⟨-, hi⟩ := h
    exact hi.trans_le (le_two_pow_indexWidth _)
  | startup | incomplete | cksumError | denied | unlockDone => exact Nat.two_pow_pos _

/-- The sink prints a word as the record it carries, when the index fits (R80, R220). -/
theorem sinkWord_recordWord {c : Config} {r : Record} (h : r.idxField < 2 ^ indexWidth c.table.length) :
    sinkWord c (recordWord (indexWidth c.table.length) r) = sinkLines c r := by
  rw [sinkWord, recordWordRoundTrip _ r h]

/-- Settles O58: every row emits records that fit their kind, and those have lines and a word that reads back. -/
theorem everyEmittedRecordFitsItsKind : Obligations.EveryEmittedRecordFitsItsKind := by
  intro s t r hstep hr
  have hfits := emitsFitting_step s t r hstep hr
  obtain ⟨lines, hlines⟩ := hfits.exists_sinkLines
  refine ⟨?cksumError, ?granted, ?denied, lines, hlines, (sinkWord_recordWord hfits.idxField_lt).trans hlines⟩
  case cksumError => rintro d rx c rfl; exact hfits
  case granted => rintro d rx c i rfl; exact hfits.left
  case denied => rintro d rx c rfl; exact hfits

end Sys2Proof.Machine
end

section
/-! PROOFS. The frame-boundary detector (40_frame_boundary.md): its rows, that HUNT.START is the only way into COLLECT (R100),
and that without a start byte no frame opens (R112). -/

namespace Sys2Proof.Machine

/-! ## Keys written as a four-bit field and data bits (30_encoding.md R72) -/

/-- The key with phase `p`, kind bits `k` and data bits `d` selects the row of that event, whatever the data bits of an EOS or
a TICK. -/
theorem decode_phaseKind_append (p : Phase) (k : BitVec 2) (d : Byte) (u : Nat) :
    decode ((p.bits ++ k : BitVec 4) ++ d) u = .ok (eventRow p (decodeEvent (k ++ d)) u) := by
  have hkey : ((p.bits ++ k : BitVec 4) ++ d : Key) = decodeKey p (k ++ d) :=
    (BitVec.append_assoc (x₁ := p.bits) (x₂ := k) (x₃ := d)).trans (BitVec.cast_eq rfl _)
  exact (congrArg (decode · u) hkey).trans (decode_event p (k ++ d) u)

theorem decode_byteKey (p : Phase) (b : Byte) (u : Nat) :
    decode ((p.bits ++ 0b00#2 : BitVec 4) ++ b) u = .ok (eventRow p (.byte b) u) := by
  rw [decode_phaseKind_append, decodeEvent_byteWord]

theorem decode_eosKey (p : Phase) (d : Byte) (u : Nat) :
    decode ((p.bits ++ 0b01#2 : BitVec 4) ++ d) u = .ok (eventRow p .eos u) := by
  rw [decode_phaseKind_append, decodeEvent_eosWord]

theorem decode_tickKey (p : Phase) (d : Byte) (u : Nat) :
    decode ((p.bits ++ 0b10#2 : BitVec 4) ++ d) u = .ok (eventRow p .tick u) := by
  rw [decode_phaseKind_append, decodeEvent_tickWord]

/-! ## The rows of HUNT and the ends of a frame (R100-R110) -/

/-- The whole state after a frame ends incomplete (R103-R107). -/
theorem endIncomplete_eq (s : State) : endIncomplete s =
    { s with phase := .hunt, cnt := 0#4, accepted := some true, record := some (.incomplete s.cnt) } := rfl

/-- Settles O5: a byte other than 0x02 selects HUNT.NOISE, whose effect is `quiet`. -/
theorem huntNoiseIsDiscarded : Obligations.HuntNoiseIsDiscarded := by
  intro b hb
  refine ⟨fun u => ?_, fun s _ => exec_huntNoise b s⟩
  have hrow : eventRow .hunt (.byte b) u = .huntNoise b := if_neg hb
  exact hrow ▸ decode_byteKey .hunt b u

/-- Settles O6: the data bits of a TICK are ignored, and outside UNLOCK its row is `quiet`. -/
theorem tickOutsidePulseChangesNothing : Obligations.TickOutsidePulseChangesNothing :=
  ⟨fun d u => ⟨decode_tickKey .hunt d u, decode_tickKey .collect d u⟩, fun s _ => exec_huntTick s,
    fun s _ => exec_collectTick s⟩

/-- Settles O7: the data bits of an EOS are ignored, and in HUNT its row only emits. -/
theorem huntEosReportsIncompleteZero : Obligations.HuntEosReportsIncompleteZero :=
  ⟨fun d u => decode_eosKey .hunt d u, fun s _ => exec_huntEos s⟩

/-- Settles O8: each stop byte is a class of its own in COLLECT, and all four rows are `endIncomplete`. -/
theorem stopByteEndsFrameIncomplete : Obligations.StopByteEndsFrameIncomplete := by
  refine ⟨fun u => ⟨decode_collectByte 0x0D#8 u, decode_collectByte 0x0A#8 u, decode_collectByte 0x03#8 u,
    decode_collectByte 0x02#8 u⟩, fun s _ i hi => ?_⟩
  rw [← endIncomplete_eq]
  simp only [List.mem_cons, List.not_mem_nil, or_false] at hi
  obtain rfl | rfl | rfl | rfl := hi
  · exact exec_collectStopCr s
  · exact exec_collectStopLf s
  · exact exec_collectStopEtx s
  · exact exec_collectStopStx s

/-- Settles O9: the data bits of an EOS are ignored, and in COLLECT its row is `endIncomplete`. -/
theorem collectEosEndsFrameIncomplete : Obligations.CollectEosEndsFrameIncomplete :=
  ⟨fun d u => decode_eosKey .collect d u, fun s _ => exec_collectEos s⟩

/-! ## The way into COLLECT (R100) -/

/-- A completed frame leaves COLLECT (44_cycle_controller.md R182-R184). -/
theorem completeFrame_phase_ne_collect (b : Byte) (s : State) : (completeFrame b s).phase ≠ .collect := by
  obtain ⟨-, h⟩ | ⟨i, -, -, h⟩ | ⟨-, -, h⟩ := completeFrame_cases b s <;> simp [h]

/-- A character keeps the phase unless it completes the frame, so it opens none. -/
theorem phase_of_charStep_collect {v : Byte} {s : State} (h : (charStep v s).phase = .collect) : s.phase = .collect := by
  obtain ⟨-, hstep⟩ | ⟨j, -, -, hstep⟩ | ⟨-, -, hstep⟩ := charStep_cases v s <;> rw [hstep] at h
  · exact h
  · exact h
  · exact absurd h (completeFrame_phase_ne_collect _ _)

/-- HUNT.START is the only row that leads to COLLECT from another phase. -/
theorem eq_huntStart_of_enters_collect {i : Instr} {s t : State} (h : exec i s = .next t) (hs : s.phase ≠ .collect)
    (ht : t.phase = .collect) : i = .huntStart := by
  cases i with
  | huntStart => rfl
  | reset | collectStopCr | collectStopLf | collectStopEtx | collectStopStx | collectEos | unlockTickLast =>
    cases h; cases ht
  | huntNoise | huntEos | huntTick | collectTick | unlockByte | unlockEos | unlockTick => cases h; exact absurd ht hs
  | collectDigit | collectAlpha | collectOther => cases h; exact absurd (phase_of_charStep_collect ht) hs

theorem eventRow_eq_huntStart {p : Phase} {e : Event} {u : Nat} (h : eventRow p e u = .huntStart) :
    p = .hunt ∧ e = .byte 0x02#8 := by
  have he : e ≠ .reset := by
    rintro rfl
    rw [eventRow_reset] at h
    cases h
  obtain ⟨hphase, hevent⟩ := keyPhase_keyEvent_eventRow p u he
  rw [h] at hphase hevent
  exact ⟨hphase.symm, hevent.symm⟩

/-- Settles O4: a step that enters COLLECT ran HUNT.START, the row of a byte 0x02 in HUNT and of no other event. -/
theorem huntStartOpensFrame : Obligations.HuntStartOpensFrame := by
  refine ⟨fun u => decode_byteKey .hunt 0x02#8 u, fun s _ => exec_huntStart s, fun s t ev hoffers hstep hs ht => ?_⟩
  obtain ⟨-, rfl | ⟨ev', rest, hin, hexec⟩⟩ := step_next_event hstep
  · exact absurd ht hs
  · obtain rfl : ev' = ev := by simpa [State.offers, hin] using hoffers
    exact eventRow_eq_huntStart (eq_huntStart_of_enters_collect hexec hs ht)

/-! ## HUNT without a start byte (R112) -/

theorem opensNoFrame_iff (ev : EventWord) :
    opensNoFrame ev = true ↔ decodeEvent ev ≠ .byte startByte ∧ decodeEvent ev ≠ .reset := by
  rw [opensNoFrame, Bool.and_eq_true, decide_eq_true_iff, decide_eq_true_iff]

/-- What a HUNT event that opens no frame puts on the record port (R101, R102, R109). -/
def huntRecord (ev : EventWord) : Option Record := if isEos ev then some (.incomplete 0#4) else none

/-- In HUNT an event that is neither a start byte nor a RESET changes the outputs only. -/
theorem offer_hunt_of_opensNoFrame {s : State} {ev : EventWord} (hwf : s.cfg.wf = true) (hp : s.phase = .hunt)
    (hev : opensNoFrame ev = true) :
    offer ev s = .next { s with input := [], accepted := some true, record := huntRecord ev } := by
  obtain ⟨hstart, hreset⟩ := (opensNoFrame_iff ev).mp hev
  rw [offer_eq ev hwf, hp, huntRecord, isEos]
  cases he : decodeEvent ev with
  | byte b =>
    have hb : b ≠ 0x02#8 := fun hb => hstart (he.trans (congrArg Event.byte hb))
    rw [eventRow_hunt_byte, if_neg hb]
    exact exec_huntNoise b _
  | eos => exact exec_huntEos _
  | tick => exact exec_huntTick _
  | reset => exact absurd he hreset

/-- The output of one such event in front of a run adds an INCOMPLETE(0) exactly when the event is an EOS. -/
theorem recordsOf_cons_huntRecord {o : StepOut} {outs : List StepOut} {ev : EventWord} {evs : List EventWord}
    (ho : o.record = huntRecord ev) (houts : recordsOf outs = List.replicate (evs.countP isEos) (.incomplete 0#4)) :
    recordsOf (o :: outs) = List.replicate ((ev :: evs).countP isEos) (.incomplete 0#4) := by
  rw [recordsOf] at houts ⊢
  cases h : isEos ev with
  | true => simp [ho, houts, huntRecord, h, List.replicate_succ]
  | false => simp [ho, houts, huntRecord, h]

/-- Settles O11, by induction on the events: each leaves HUNT's registers, so the rest of the run starts from the same ones. -/
theorem noFrameWithoutStartByte : Obligations.NoFrameWithoutStartByte := by
  intro evs
  induction evs with
  | nil => exact fun s _ hp _ => ⟨s, [], play_nil s, hp, rfl, rfl, rfl, rfl, rfl, rfl, rfl⟩
  | cons ev evs ih =>
    intro s hwf hp hall
    rw [List.all_cons, Bool.and_eq_true] at hall
    obtain ⟨hev, hevs⟩ := hall
    have hoffer := offer_hunt_of_opensNoFrame hwf hp hev
    obtain ⟨t, outs, hplay, hphase, hcnt, hhi, hid, hacc, hrx, hutimer, hrecords⟩ :=
      ih { s with input := [], accepted := some true, record := huntRecord ev } hwf hp hevs
    exact ⟨t, _, play_cons hoffer hplay, hphase, hcnt, hhi, hid, hacc, hrx, hutimer,
      recordsOf_cons_huntRecord rfl hrecords⟩

end Sys2Proof.Machine
end

section
/-! PROOFS. The ASCII-hex to binary converter (41_hex_converter.md): the character rows as one character step, that step by its
position (R123, R124), and byte assembly (R125). -/

namespace Sys2Proof.Machine

/-! ## The character rows and the positions of a character (R120-R124) -/

/-- The three character rows differ in the value they give to the one character step. -/
theorem exec_of_frameCharValue {i : Instr} {v : Byte} (h : frameCharValue i = some v) (s : State) :
    exec i s = .next (charStep v s) := by
  cases i with
  | collectDigit d => cases h; rw [exec_collectDigit, digitValue_eq]
  | collectAlpha a => cases h; rw [exec_collectAlpha, alphaValue_eq]
  | collectOther b => cases h; exact exec_collectOther v s
  | reset | huntStart | huntNoise | huntEos | huntTick | collectStopCr | collectStopLf | collectStopEtx | collectStopStx
  | collectEos | collectTick | unlockByte | unlockEos | unlockTick | unlockTickLast => cases h

theorem charStep_of_even {s : State} (v : Byte) (h : s.cnt.toNat % 2 = 0) : charStep v s = highNibble v s :=
  if_neg (by simp [lowPosition_eq, h])

theorem charStep_of_odd {s : State} (v : Byte) (h : s.cnt.toNat % 2 = 1) : charStep v s = lowNibble v s :=
  if_pos (by simp [lowPosition_eq, h])

theorem charStep_of_idPosition {s : State} {j : Fin 5} (v : Byte) (h : s.cnt.toNat = 2 * j.val + 1) :
    charStep v s = storeIdByte j (assemble s.hi v) s := by
  have hj : byteIndex s.cnt = j := by rw [byteIndex_eq]; omega
  rw [charStep_of_odd v (by omega), lowNibble, dif_pos (hj ▸ j.isLt)]
  simp only [hj]

theorem charStep_of_lastPosition {s : State} (v : Byte) (h : s.cnt.toNat = 11) :
    charStep v s = completeFrame (assemble s.hi v) { s with rx := assemble s.hi v } := by
  have hj : ¬ byteIndex s.cnt < 5 := by rw [byteIndex_eq]; omega
  rw [charStep_of_odd v (by omega), lowNibble, dif_neg hj]

/-- Settles O13: every character row is the character step, which at an even position is `highNibble`. -/
theorem evenCharacterLatchesHighNibble : Obligations.EvenCharacterLatchesHighNibble := by
  intro i v s hv _ _ heven
  rw [exec_of_frameCharValue hv, charStep_of_even v heven]
  rfl

/-! ## Byte assembly (R125) -/

theorem toNat_assemble (hi v : Byte) : (assemble hi v).toNat = (hi.toNat <<< 4 ||| v.toNat) % 2 ^ 8 := by
  rw [assemble, BitVec.toNat_or, BitVec.toNat_shiftLeft, Nat.or_mod_two_pow, Nat.mod_eq_of_lt v.isLt]

theorem assemble_eq_pairByte (hi v : Byte) : assemble hi v = pairByte hi v := by
  apply BitVec.eq_of_toNat_eq
  rw [toNat_assemble, pairByte, BitVec.toNat_ofNat, Nat.mod_mod]

theorem highNibble_assemble (hi v : Byte) :
    (assemble hi v).extractLsb' 4 4 = hi.extractLsb' 0 4 ||| v.extractLsb' 4 4 := by
  have hshift : (hi <<< 4).extractLsb' 4 4 = hi.extractLsb' 0 4 := by
    ext k hk
    have hlt : 4 + k < 8 := by omega
    simp [hlt, BitVec.getLsbD_eq_getElem (show k < 8 by omega)]
  rw [assemble, BitVec.extractLsb'_or, hshift]

theorem lowNibble_assemble (hi v : Byte) : (assemble hi v).extractLsb' 0 4 = v.extractLsb' 0 4 := by
  have hshift : (hi <<< 4).extractLsb' 0 4 = 0#4 := by
    ext k hk
    simp [hk]
  rw [assemble, BitVec.extractLsb'_or, hshift, BitVec.zero_or]

/-- For two hex characters the nibbles do not overlap, so the disjunction is a sum. -/
theorem toNat_assemble_of_le {hi v : Byte} (hhi : hi.toNat ≤ 15) (hv : v.toNat ≤ 15) :
    (assemble hi v).toNat = 16 * hi.toNat + v.toNat := by
  rw [toNat_assemble, ← Nat.shiftLeft_add_eq_or_of_lt (by omega : v.toNat < 2 ^ 4), Nat.shiftLeft_eq]
  omega

/-- Settles O19: the number form, each nibble, and the sum for hex characters. -/
theorem assembledByteNibbles : Obligations.AssembledByteNibbles := fun hi v =>
  ⟨assemble_eq_pairByte hi v, highNibble_assemble hi v, lowNibble_assemble hi v, toNat_assemble_of_le⟩

end Sys2Proof.Machine
end

section
/-! PROOFS. A frame as the converter reads it (41_hex_converter.md R126): each byte's two characters assemble to that byte, ten
characters store the identifier, and the last two complete the frame. -/

namespace Sys2Proof.Machine

/-! ## The completion step (44_cycle_controller.md R181-R184) -/

@[simp] theorem completeFrame_id (b : Byte) (s : State) : (completeFrame b s).id = s.id := by
  obtain ⟨-, h⟩ | ⟨i, -, -, h⟩ | ⟨-, -, h⟩ := completeFrame_cases b s <;> simp [h]

@[simp] theorem completeFrame_acc (b : Byte) (s : State) : (completeFrame b s).acc = s.acc := by
  obtain ⟨-, h⟩ | ⟨i, -, -, h⟩ | ⟨-, -, h⟩ := completeFrame_cases b s <;> simp [h]

@[simp] theorem completeFrame_rx (b : Byte) (s : State) : (completeFrame b s).rx = s.rx := by
  obtain ⟨-, h⟩ | ⟨i, -, -, h⟩ | ⟨-, -, h⟩ := completeFrame_cases b s <;> simp [h]

theorem completeFrame_of_lookup_some {b : Byte} {s : State} {i : Nat} (hb : b = s.acc)
    (hi : lookup s.cfg.table s.id = some i) : completeFrame b s = completeGranted b i s := by
  rw [completeFrame, if_pos ((validFlag_iff _ _).mpr hb), hi]

theorem completeFrame_of_lookup_none {b : Byte} {s : State} (hb : b = s.acc) (hnone : lookup s.cfg.table s.id = none) :
    completeFrame b s = completeDenied b s := by
  rw [completeFrame, if_pos ((validFlag_iff _ _).mpr hb), hnone]

/-! ## The two characters of a byte (R120, R121, R125) -/

/-- The value of a hex character: its nibble in eight bits. -/
def nibbleValue (n : BitVec 4) : Byte := 0x0#4 ++ n

theorem toNat_nibbleValue (n : BitVec 4) : (nibbleValue n).toNat = n.toNat := by
  rw [nibbleValue, BitVec.toNat_append]
  simp

/-- The character of a nibble is a DIGIT or an ALPHA whose value is that nibble. -/
theorem frameCharValue_hexCharByte (n : BitVec 4) :
    frameCharValue (collectByteRow (hexCharByte n)) = some (nibbleValue n) := by
  have h : ∀ k : Fin 16,
      frameCharValue (collectByteRow (hexCharByte (BitVec.ofFin k))) = some (nibbleValue (BitVec.ofFin k)) := by
    decide
  exact h n.toFin

theorem assemble_nibbleValue (b : Byte) :
    assemble (nibbleValue (b.extractLsb' 4 4)) (nibbleValue (b.extractLsb' 0 4)) = b := by
  have hhi : (nibbleValue (b.extractLsb' 4 4)).toNat = b.toNat / 16 := by
    rw [toNat_nibbleValue, BitVec.extractLsb'_toNat, Nat.shiftRight_eq_div_pow]
    omega
  have hlo : (nibbleValue (b.extractLsb' 0 4)).toNat = b.toNat % 16 := by
    rw [toNat_nibbleValue, BitVec.extractLsb'_toNat, Nat.shiftRight_zero]
  apply BitVec.eq_of_toNat_eq
  rw [toNat_assemble_of_le (by omega) (by omega), hhi, hlo]
  omega

/-! ## Bytes offered in a frame -/

/-- The BYTE events of a list of bytes. -/
def byteEvents (bs : List Byte) : List EventWord := bs.map fun b => encodeEvent (.byte b)

theorem byteEvents_append (bs cs : List Byte) : byteEvents (bs ++ cs) = byteEvents bs ++ byteEvents cs := List.map_append

/-- A frame is the start byte, the characters of the identifier, and those of the checksum byte (30_encoding.md R76). -/
theorem frameEvents_eq (t : TagId) (c : Byte) : frameEvents t c =
    encodeEvent (.byte startByte) :: (byteEvents ((idBytes t).flatMap hexPair) ++ byteEvents (hexPair c)) := rfl

theorem offer_startByte {s : State} (hwf : s.cfg.wf = true) (hp : s.phase = .hunt) :
    offer (encodeEvent (.byte startByte)) s =
      .next { s.quiet with phase := .collect, cnt := 0#4, acc := 0x00#8, input := [] } := by
  rw [offer_eq _ hwf, hp, decodeEvent_encodeEvent]
  rfl

/-- In COLLECT the character of a nibble is a character step with that nibble. -/
theorem offer_hexCharByte {s : State} (hwf : s.cfg.wf = true) (hp : s.phase = .collect) (n : BitVec 4) :
    offer (encodeEvent (.byte (hexCharByte n))) s = .next (charStep (nibbleValue n) { s with input := [] }) := by
  rw [offer_eq _ hwf, hp, decodeEvent_encodeEvent, eventRow_collect_byte]
  exact exec_of_frameCharValue (frameCharValue_hexCharByte n) _

/-- The output of a step after which the block waits for the next character of the frame (R100, R123, R124). -/
def collectOut : StepOut := ⟨some true, none, true, false, false⟩

theorem out_eq_collectOut {s : State} (ha : s.accepted = some true) (hr : s.record = none) (hp : s.phase = .collect) :
    s.out = collectOut := by
  rw [State.out, State.inReady, State.lockOut, State.statusOut, ha, hr, hp]
  rfl

theorem recordsOf_replicate_collectOut (n : Nat) : recordsOf (List.replicate n collectOut) = [] := by
  simp [recordsOf, collectOut]

/-! ## A frame whose first identifier bytes are read -/

/-- COLLECT on the chip `c`, with exactly the bytes `bs` read since the start byte. -/
structure Collecting (c : Config) (bs : List Byte) (s : State) : Prop where
  cfg : s.cfg = c
  phase : s.phase = .collect
  cnt : s.cnt.toNat = 2 * bs.length
  id : (idBytes s.id).take bs.length = bs
  acc : s.acc = bs.foldl checksumStep 0x00#8

theorem collecting_huntStart (s : State) :
    Collecting s.cfg [] { s.quiet with phase := .collect, cnt := 0#4, acc := 0x00#8, input := [] } :=
  ⟨rfl, rfl, rfl, rfl, rfl⟩

theorem take_idBytes_idSet (t : TagId) (j : Fin 5) (b : Byte) :
    (idBytes (idSet t j b)).take (j + 1) = (idBytes t).take j ++ [b] := by
  rw [idBytes_idSet, List.take_add_one, List.take_set_of_le (Nat.le_refl _)]
  simp [length_idBytes]

theorem idBytes_injective {t u : TagId} (h : idBytes t = idBytes u) : t = u := by
  cases t
  cases u
  simpa [idBytes] using h

section
variable {c : Config} {bs : List Byte} {s : State}

/-- The state between the two characters of byte `b`: the first nibble is latched. -/
def State.latched (s : State) (b : Byte) : State := highNibble (nibbleValue (b.extractLsb' 4 4)) { s with input := [] }

theorem Collecting.toNat_cnt_latched (h : Collecting c bs s) (b : Byte) :
    (s.latched b).cnt.toNat = 2 * bs.length + 1 := by
  have hcnt := h.cnt
  have hnext : (s.latched b).cnt = s.cnt + 1#4 := rfl
  rw [hnext, toNat_cnt_add_one (by omega), hcnt]

/-- The first character of a byte is at an even position (R123). -/
theorem Collecting.offer_first (h : Collecting c bs s) (hwf : c.wf = true) (b : Byte) :
    offer (encodeEvent (.byte (hexCharByte (b.extractLsb' 4 4)))) s = .next (s.latched b) := by
  have heven : s.cnt.toNat % 2 = 0 := by rw [h.cnt]; omega
  rw [offer_hexCharByte (h.cfg ▸ hwf) h.phase, charStep_of_even (s := { s with input := [] }) _ heven, State.latched]

/-- The second character is a character step of the latched state. -/
theorem Collecting.offer_second (h : Collecting c bs s) (hwf : c.wf = true) (b : Byte) :
    offer (encodeEvent (.byte (hexCharByte (b.extractLsb' 0 4)))) (s.latched b) =
      .next (charStep (nibbleValue (b.extractLsb' 0 4)) (s.latched b)) :=
  offer_hexCharByte (s := s.latched b) (h.cfg ▸ hwf) h.phase _

/-- The two characters of a byte: the nibble is latched, and the character step follows with the other. -/
theorem Collecting.play_hexPair (h : Collecting c bs s) (hwf : c.wf = true) (b : Byte) {s' : State}
    (hs' : charStep (nibbleValue (b.extractLsb' 0 4)) (s.latched b) = s') :
    play (byteEvents (hexPair b)) s = .next (s', [collectOut, s'.out]) := by
  have hfirst : (s.latched b).out = collectOut := out_eq_collectOut rfl rfl h.phase
  rw [← hfirst]
  exact play_cons (h.offer_first hwf b) (play_cons (hs' ▸ h.offer_second hwf b) (play_nil _))

theorem Collecting.after_idByte (h : Collecting c bs s) (hlt : bs.length < 5) (b : Byte) :
    Collecting c (bs ++ [b]) (storeIdByte ⟨bs.length, hlt⟩ b (s.latched b)) where
  cfg := h.cfg
  phase := h.phase
  cnt := by
    have hcnt := h.toNat_cnt_latched b
    rw [storeIdByte_cnt, toNat_cnt_add_one (by omega), hcnt, List.length_append, List.length_singleton]
    omega
  id := by
    have htake := take_idBytes_idSet s.id ⟨bs.length, hlt⟩ b
    rw [h.id] at htake
    rwa [List.length_append, List.length_singleton]
  acc := by
    rw [List.foldl_append, ← h.acc]
    rfl

/-- The characters of an identifier byte store it (R124). -/
theorem Collecting.play_idByte (h : Collecting c bs s) (hwf : c.wf = true) (hlt : bs.length < 5) (b : Byte) :
    play (byteEvents (hexPair b)) s =
      .next (storeIdByte ⟨bs.length, hlt⟩ b (s.latched b), [collectOut, collectOut]) := by
  have hstep : charStep (nibbleValue (b.extractLsb' 0 4)) (s.latched b) =
      storeIdByte ⟨bs.length, hlt⟩ b (s.latched b) := by
    rw [charStep_of_idPosition (j := ⟨bs.length, hlt⟩) _ (h.toNat_cnt_latched b), State.latched, highNibble_hi,
      assemble_nibbleValue]
  have hout : (storeIdByte ⟨bs.length, hlt⟩ b (s.latched b)).out = collectOut := out_eq_collectOut rfl rfl h.phase
  rw [h.play_hexPair hwf b hstep, hout]

/-- The characters of the byte after the identifier complete the frame (R124, 44_cycle_controller.md R181). -/
theorem Collecting.play_lastByte (h : Collecting c bs s) (hwf : c.wf = true) (hlen : bs.length = 5) (b : Byte) :
    play (byteEvents (hexPair b)) s =
      .next (completeFrame b { s.latched b with rx := b },
        [collectOut, (completeFrame b { s.latched b with rx := b }).out]) := by
  refine h.play_hexPair hwf b ?_
  have hcnt : (s.latched b).cnt.toNat = 11 := by rw [h.toNat_cnt_latched, hlen]
  have hbyte : assemble (s.latched b).hi (nibbleValue (b.extractLsb' 0 4)) = b := assemble_nibbleValue b
  rw [charStep_of_lastPosition _ hcnt, hbyte]

/-- Identifier bytes offered after those already read are read in order, with no record. -/
theorem Collecting.play_idBytes (h : Collecting c bs s) (hwf : c.wf = true) (more : List Byte)
    (hle : bs.length + more.length ≤ 5) :
    ∃ s', play (byteEvents (more.flatMap hexPair)) s = .next (s', List.replicate (2 * more.length) collectOut) ∧
      Collecting c (bs ++ more) s' := by
  induction more generalizing bs s with
  | nil => exact ⟨s, play_nil s, by rwa [List.append_nil]⟩
  | cons b more ih =>
    rw [List.length_cons] at hle
    have hlt : bs.length < 5 := by omega
    obtain ⟨s', hplay, hs'⟩ := ih (h.after_idByte hlt b) (by rw [List.length_append, List.length_singleton]; omega)
    refine ⟨s', ?_, by rwa [List.append_assoc] at hs'⟩
    rw [List.flatMap_cons, byteEvents_append]
    exact play_append (h.play_idByte hwf hlt b) hplay

theorem Collecting.id_eq {t : TagId} (h : Collecting c (idBytes t) s) : s.id = t := idBytes_injective h.id

end

/-! ## A whole frame from HUNT -/

/-- From HUNT, a frame waits through its first twelve bytes and ends in the completion step, with the identifier decoded, its
fold in `acc` and the frame's last byte in `rx`. -/
theorem play_frameEvents {s : State} (t : TagId) (c : Byte) (hwf : s.cfg.wf = true) (hp : s.phase = .hunt) :
    ∃ r : State, r.cfg = s.cfg ∧ r.id = t ∧ r.acc = checksumOf t ∧ r.rx = c ∧
      play (frameEvents t c) s =
        .next (completeFrame c r, List.replicate 12 collectOut ++ [(completeFrame c r).out]) := by
  obtain ⟨u, hids, hu⟩ := (collecting_huntStart s).play_idBytes hwf (idBytes t) (Nat.le_refl 5)
  rw [List.nil_append] at hu
  have hlast := hu.play_lastByte hwf (length_idBytes t) c
  refine ⟨{ u.latched c with rx := c }, hu.cfg, hu.id_eq, hu.acc, rfl, ?_⟩
  rw [frameEvents_eq]
  have hrun := play_cons (offer_startByte hwf hp) (play_append hids hlast)
  exact hrun

theorem recordsOf_collectOut_append (n : Nat) (s : State) :
    recordsOf (List.replicate n collectOut ++ [s.out]) = s.record.toList := by
  rw [recordsOf_append, recordsOf_replicate_collectOut, List.nil_append]
  cases h : s.record <;> simp [recordsOf, State.out, h]

/-- Settles O23: the frame ends in the completion step of a valid checksum, where the table decides. -/
theorem frameRoundTripDecodesIdentifier : Obligations.FrameRoundTripDecodesIdentifier := by
  intro t s hwf hp
  obtain ⟨r, hcfg, hid, hacc, hrx, hplay⟩ := play_frameEvents t (checksumOf t) hwf hp
  refine ⟨_, _, hplay, ?_⟩
  simp only [completeFrame_id, completeFrame_rx, completeFrame_acc, recordsOf_collectOut_append, hid, hacc, hrx,
    validFlag_iff, true_and]
  refine ⟨fun idx hidx => ?granted, fun hnone => ?denied⟩
  case granted =>
    rw [completeFrame_of_lookup_some hacc.symm (by rw [hcfg, hid, hidx])]
    simp [hcfg, hid, hacc]
  case denied =>
    rw [completeFrame_of_lookup_none hacc.symm (by rw [hcfg, hid, hnone])]
    simp [hid, hacc]

end Sys2Proof.Machine
end

section
/-! PROOFS. The checksum (42_checksum.md): a character at an odd position folds the byte it stores (R140), the fold forgets the order
of the bytes (R143), and so it tells apart identifiers that differ in one byte (R144). -/

namespace Sys2Proof.Machine

/-- Settles O14: every character row is the character step, which at the low position of an identifier byte stores and folds it. -/
theorem oddCharacterStoresIdentifierByte : Obligations.OddCharacterStoresIdentifierByte := by
  intro i v j s hv _ hcnt
  rw [exec_of_frameCharValue hv, charStep_of_idPosition v hcnt, assemble_eq_pairByte]
  rfl

/-! ## The fold forgets the order of the bytes (R143) -/

theorem checksumStep_right_comm (acc b c : Byte) :
    checksumStep (checksumStep acc b) c = checksumStep (checksumStep acc c) b := by
  rw [checksumStep, checksumStep, BitVec.xor_assoc, BitVec.xor_comm b c, ← BitVec.xor_assoc]
  rfl

theorem foldl_checksumStep_of_perm {bs cs : List Byte} (h : bs.Perm cs) (acc : Byte) :
    bs.foldl checksumStep acc = cs.foldl checksumStep acc :=
  h.foldl_eq' (fun b _ c _ acc => checksumStep_right_comm acc b c) acc

theorem checksumOf_eq_of_perm {t t' : TagId} (h : (idBytes t).Perm (idBytes t')) : checksumOf t = checksumOf t' :=
  foldl_checksumStep_of_perm h _

/-- At the 12th character all five bytes are folded (10_state.md R30). -/
theorem State.Inv.acc_eq_checksumOf {s : State} (h : s.Inv) (hp : s.phase = .collect) (hcnt : s.cnt = 11#4) :
    s.acc = checksumOf s.id := by
  obtain ⟨-, -, hacc⟩ := (State.inv_of_collect hp).mp h
  have hall : byteIndex s.cnt = (idBytes s.id).length := by rw [hcnt, length_idBytes]; decide
  rw [hacc, checksumUpTo, hall, List.take_length, checksumOf]

/-- Settles O20: `checksumOf` is this fold, and the steps of a fold by XOR may be exchanged. -/
theorem checksumIsOrderFreeXorFold : Obligations.ChecksumIsOrderFreeXorFold :=
  ⟨fun _ hs hp hcnt => hs.acc_eq_checksumOf hp hcnt, fun _ _ => checksumOf_eq_of_perm⟩

/-! ## One changed byte (R144) -/

/-- Changing byte `j` exchanges it for the new one, up to order. -/
theorem idBytes_idSet_perm (t : TagId) (j : Fin 5) (b : Byte) :
    (idBytes (idSet t j b) ++ [idGet t j]).Perm (idBytes t ++ [b]) := by
  have hj : j.val < (idBytes t).length := j.isLt
  have hget : (idBytes t)[j.val] = idGet t j := List.getElem_eq_iff hj |>.mpr (idBytes_getElem? t j)
  have hold : (idGet t j :: (idBytes t).eraseIdx j).Perm (idBytes t) := hget ▸ List.getElem_cons_eraseIdx_perm hj
  have hnew : (idBytes (idSet t j b)).Perm (b :: (idBytes t).eraseIdx j) :=
    idBytes_idSet t j b ▸ List.set_perm_cons_eraseIdx hj b
  calc List.Perm (idBytes (idSet t j b) ++ [idGet t j]) (idGet t j :: idBytes (idSet t j b)) := List.perm_append_singleton _ _
    List.Perm _ (idGet t j :: b :: (idBytes t).eraseIdx j) := hnew.cons _
    List.Perm _ (b :: idGet t j :: (idBytes t).eraseIdx j) := List.Perm.swap _ _ _
    List.Perm _ (b :: idBytes t) := hold.cons _
    List.Perm _ (idBytes t ++ [b]) := (List.perm_append_singleton _ _).symm

/-- The checksum changes by the difference of the changed byte. -/
theorem checksumStep_checksumOf_idSet (t : TagId) (j : Fin 5) (b : Byte) :
    checksumStep (checksumOf (idSet t j b)) (idGet t j) = checksumStep (checksumOf t) b := by
  have hfold := foldl_checksumStep_of_perm (idBytes_idSet_perm t j b) 0x00#8
  rwa [List.foldl_concat, List.foldl_concat] at hfold

theorem checksumOf_idSet_ne {t : TagId} {j : Fin 5} {b : Byte} (hb : b ≠ idGet t j) :
    checksumOf (idSet t j b) ≠ checksumOf t := by
  intro heq
  have hstep := checksumStep_checksumOf_idSet t j b
  rw [heq] at hstep
  exact hb ((BitVec.xor_right_inj _).mp hstep).symm

/-! ## A whole frame with a wrong checksum byte (44_cycle_controller.md R182) -/

theorem completeFrame_of_ne {b : Byte} {s : State} (hb : b ≠ s.acc) : completeFrame b s = completeInvalid b s :=
  if_neg fun hv => hb ((validFlag_iff _ _).mp hv)

/-- From HUNT, a frame whose checksum byte is not its identifier's checksum waits through its first twelve bytes and ends in the
completion step of an invalid checksum. -/
theorem play_frameEvents_of_ne {s : State} {t : TagId} {c : Byte} (hwf : s.cfg.wf = true) (hp : s.phase = .hunt)
    (hc : c ≠ checksumOf t) :
    ∃ r : State, r.id = t ∧ r.acc = checksumOf t ∧ r.rx = c ∧
      play (frameEvents t c) s =
        .next (completeInvalid c r, List.replicate 12 collectOut ++ [(completeInvalid c r).out]) := by
  obtain ⟨r, -, hid, hacc, hrx, hplay⟩ := play_frameEvents t c hwf hp
  rw [completeFrame_of_ne (hacc ▸ hc)] at hplay
  exact ⟨r, hid, hacc, hrx, hplay⟩

/-- Settles O25: the checksum kept is not that of the changed identifier, so the frame is one with a wrong checksum byte. -/
theorem changedIdentifierByteIsDetected : Obligations.ChangedIdentifierByteIsDetected := by
  intro t j b s hwf hp hb
  have hne : checksumOf t ≠ checksumOf (idSet t j b) := (checksumOf_idSet_ne hb).symm
  obtain ⟨r, hid, hacc, hrx, hplay⟩ := play_frameEvents_of_ne hwf hp hne
  refine ⟨_, _, hplay, ?invalid, ?record⟩
  case invalid =>
    rw [completeInvalid_rx, completeInvalid_acc, hrx, hacc]
    exact beq_eq_false_iff_ne.mpr hne
  case record =>
    rw [recordsOf_collectOut_append, completeInvalid_record, hid, hacc]
    rfl

end Sys2Proof.Machine
end

section
/-! PROOFS. The lookup arbiter (43_lookup_arbiter.md): its flag and its index (R161, R162), and the empty table (R164). -/

namespace Sys2Proof.Machine

/-! ## The flag and the index (R161, R162) -/

theorem hitFlag_iff (table : List Entry) (t : TagId) : hitFlag table t = true ↔ ∃ e ∈ table, e.id = t := by
  simp only [hitFlag, List.any_eq_true, matchFlag_iff]

theorem hitFlag_eq_isSome_lookup (table : List Entry) (t : TagId) : hitFlag table t = (lookup table t).isSome :=
  List.findIdx?_isSome.symm

theorem lookup_eq_some_iff {table : List Entry} {t : TagId} {i : Nat} : lookup table t = some i ↔
    (∃ e, table[i]? = some e ∧ e.id = t) ∧ ∀ j < i, ∀ e, table[j]? = some e → e.id ≠ t := by
  simp only [lookup, List.findIdx?_eq_some_iff_getElem, matchFlag_iff, List.getElem?_eq_some_iff]
  constructor
  · rintro ⟨hi, hmatch, hleast⟩
    refine ⟨⟨table[i], ⟨hi, rfl⟩, hmatch⟩, ?_⟩
    rintro j hj _ ⟨_, rfl⟩
    exact hleast j hj
  · rintro ⟨⟨_, ⟨hi, rfl⟩, hmatch⟩, hleast⟩
    exact ⟨hi, hmatch, fun j hj => hleast j hj table[j] ⟨hj.trans hi, rfl⟩⟩

/-- Settles O21: the flag and the arbiter both scan for an entry with the identifier, the arbiter from index 0. -/
theorem lookupSelectsFirstMatch : Obligations.LookupSelectsFirstMatch := fun table t =>
  ⟨hitFlag_iff table t, hitFlag_eq_isSome_lookup table t, fun _ => lookup_eq_some_iff⟩

/-! ## The empty table (R164) -/

/-- A granted record's index is an entry of the table (20_memory.md R51), so the table is not empty. -/
theorem table_ne_nil_of_granted {s t : State} {d : TagId} {rx c : Byte} {i : Nat} (h : step s = .next t)
    (hr : t.record = some (.granted d rx c i)) : s.cfg.table ≠ [] := by
  obtain ⟨-, hi⟩ := emitsFitting_step s t _ h hr
  exact List.ne_nil_of_length_pos (Nat.zero_lt_of_lt hi)

/-- A character at position 11 whose assembled byte is the checksum ends in DENIED when no entry matches (R184). -/
theorem charStep_eq_completeDenied {s : State} {v : Byte} (hcnt : s.cnt = 11#4) (hacc : pairByte s.hi v = s.acc)
    (hnone : lookup s.cfg.table s.id = none) : charStep v s = completeDenied s.acc { s with rx := s.acc } := by
  rw [charStep_of_lastPosition v (congrArg BitVec.toNat hcnt), assemble_eq_pairByte, hacc]
  exact completeFrame_of_lookup_none rfl hnone

/-- Settles O22: a grant needs an entry, and the lookup in the empty table finds none. -/
theorem emptyTableNeverGrants : Obligations.EmptyTableNeverGrants := by
  intro s hempty
  constructor
  · intro t hstep d rx c i hgranted
    exact table_ne_nil_of_granted hstep hgranted hempty
  · intro i v hv hcnt hacc
    have hnone : lookup s.cfg.table s.id = none := hempty ▸ lookup_nil s.id
    refine ⟨completeDenied s.acc { s with rx := s.acc }, ?_, completeDenied_record _ _, completeDenied_phase _ _⟩
    rw [exec_of_frameCharValue hv, charStep_eq_completeDenied hcnt hacc hnone]

end Sys2Proof.Machine
end

section
/-! PROOFS. The completion step of the cycle controller (44_cycle_controller.md R181-R185): the 12th character of a frame by its
checksum and the table, and a whole frame with a wrong checksum byte. -/

namespace Sys2Proof.Machine

/-! ## The 12th character (R182-R184) -/

/-- At position 11 every character row is the completion step with the byte that its character assembles. -/
theorem exec_of_lastCharacter {i : Instr} {v : Byte} {s : State} (hv : frameCharValue i = some v) (hcnt : s.cnt = 11#4) :
    exec i s = .next (completeFrame (pairByte s.hi v) { s with rx := pairByte s.hi v }) := by
  rw [exec_of_frameCharValue hv, charStep_of_lastPosition v (congrArg BitVec.toNat hcnt), assemble_eq_pairByte]

/-- The arbiter finds nothing exactly when no index reads an entry with the identifier (43_lookup_arbiter.md R161). -/
theorem lookup_eq_none_iff {table : List Entry} {t : TagId} :
    lookup table t = none ↔ ∀ (j : Nat) (e : Entry), table[j]? = some e → e.id ≠ t := by
  simp only [lookup, List.findIdx?_eq_none_iff, List.mem_iff_getElem?, ← Bool.not_eq_true, matchFlag_iff]
  exact ⟨fun h j e hj => h e ⟨j, hj⟩, fun h e ⟨j, hj⟩ => h j e hj⟩

/-- Settles O16: the completion step compares the checksums first, and a wrong one ends it before the arbiter is asked. -/
theorem wrongChecksumReportsErrorWithoutActuation : Obligations.WrongChecksumReportsErrorWithoutActuation := by
  intro i v s hv _ hcnt hne
  rw [exec_of_lastCharacter hv hcnt, completeFrame_of_ne (s := { s with rx := pairByte s.hi v }) hne]
  rfl

/-- Settles O17: the least index of an entry with the identifier is the arbiter's answer, which the completion step grants. -/
theorem matchingFrameIsGranted : Obligations.MatchingFrameIsGranted := by
  intro i v s idx e hv _ hcnt hacc hread hid hleast
  have hlookup : lookup s.cfg.table s.id = some idx := lookup_eq_some_iff.mpr ⟨⟨e, hread, hid⟩, hleast⟩
  rw [exec_of_lastCharacter hv hcnt, completeFrame_of_lookup_some (s := { s with rx := pairByte s.hi v }) hacc hlookup]
  rfl

/-- Settles O18: with no such entry the arbiter answers none, which the completion step denies. -/
theorem unlistedFrameIsDenied : Obligations.UnlistedFrameIsDenied := by
  intro i v s hv _ hcnt hacc hnone
  have hlookup : lookup s.cfg.table s.id = none := lookup_eq_none_iff.mpr hnone
  rw [exec_of_lastCharacter hv hcnt, completeFrame_of_lookup_none (s := { s with rx := pairByte s.hi v }) hacc hlookup]
  rfl

/-! ## A whole frame with a wrong checksum byte (R182, R185) -/

theorem lockOut_of_mem_collectOut_append {n : Nat} {s : State} (hs : s.lockOut = false) {o : StepOut}
    (ho : o ∈ List.replicate n collectOut ++ [s.out]) : o.lockOut = false := by
  rw [List.mem_append, List.mem_singleton] at ho
  obtain hwait | rfl := ho
  · rw [List.eq_of_mem_replicate hwait]
    rfl
  · exact hs

/-- Settles O24: the frame waits for twelve bytes with the lock off and ends in the completion step of an invalid checksum. -/
theorem frameWithWrongChecksumIsAnError : Obligations.FrameWithWrongChecksumIsAnError := by
  intro t c s hwf hp hc
  obtain ⟨r, hid, hacc, hrx, hplay⟩ := play_frameEvents_of_ne hwf hp hc
  refine ⟨_, _, hplay, rfl, hid, hrx, ?record, fun o => lockOut_of_mem_collectOut_append rfl⟩
  rw [recordsOf_collectOut_append, completeInvalid_record, hid, hacc]
  rfl

end Sys2Proof.Machine
end

section
/-! PROOFS. What one step tells of a cycle (44_cycle_controller.md): only a grant turns the lock on (R186), and a record with `sep`
1 comes exactly at the end of a cycle (R187). -/

namespace Sys2Proof.Machine

/-! ## The grant is the only way into UNLOCK (R186) -/

theorem lockOut_iff (s : State) : s.lockOut = true ↔ s.phase = .unlock := beq_iff_eq

theorem lockOut_eq_false_iff (s : State) : s.lockOut = false ↔ s.phase ≠ .unlock := beq_eq_false_iff_ne

/-- `t` is the grant that a character past the identifier brings in `s`, when the byte received is `acc` and the arbiter selects
entry `idx` (R183). -/
structure GrantedFrom (s : State) (idx : Nat) (t : State) : Prop where
  complete : 11 ≤ s.cnt.toNat
  hit : lookup s.cfg.table s.id = some idx
  next : t = completeGranted s.acc idx { s with rx := s.acc }

theorem eleven_le_of_lastPosition {c : BitVec 4} (hodd : lowPosition c = true) (hlast : 5 ≤ byteIndex c) : 11 ≤ c.toNat := by
  rw [lowPosition_eq, decide_eq_true_iff] at hodd
  rw [byteIndex_eq] at hlast
  omega

theorem charStep_enters_unlock {v : Byte} {s : State} (hs : s.phase ≠ .unlock) (ht : (charStep v s).phase = .unlock) :
    ∃ idx, GrantedFrom s idx (charStep v s) := by
  obtain ⟨-, hstep⟩ | ⟨j, -, -, hstep⟩ | ⟨hodd, hlast, hstep⟩ := charStep_cases v s <;> rw [hstep] at ht ⊢
  · exact absurd ht hs
  · exact absurd ht hs
  · obtain ⟨-, h⟩ | ⟨idx, hvalid, hhit, h⟩ | ⟨-, -, h⟩ :=
      completeFrame_cases (assemble s.hi v) { s with rx := assemble s.hi v } <;> rw [h] at ht ⊢
    · cases ht
    · exact ⟨idx, eleven_le_of_lastPosition hodd hlast, hhit, by rw [hvalid]⟩
    · cases ht

/-- Only a row of COLLECT, by the character that completes a frame, leads to UNLOCK from another phase. -/
theorem exec_enters_unlock {i : Instr} {s t : State} (h : exec i s = .next t) (hs : s.phase ≠ .unlock)
    (ht : t.phase = .unlock) : i.keyPhase = .collect ∧ ∃ idx, GrantedFrom s idx t := by
  cases i with
  | collectDigit | collectAlpha | collectOther => cases h; exact ⟨rfl, charStep_enters_unlock hs ht⟩
  | reset | huntStart | collectStopCr | collectStopLf | collectStopEtx | collectStopStx | collectEos | unlockTickLast =>
    cases h; cases ht
  | huntNoise | huntEos | huntTick | collectTick | unlockByte | unlockEos | unlockTick => cases h; exact absurd ht hs

theorem eq_collect_of_keyPhase_eventRow {p : Phase} {e : Event} {u : Nat} (h : (eventRow p e u).keyPhase = .collect) :
    p = .collect := by
  have he : e ≠ .reset := by
    rintro rfl
    rw [eventRow_reset] at h
    cases h
  obtain ⟨hphase, -⟩ := keyPhase_keyEvent_eventRow p u he
  exact hphase.symm.trans h

theorem step_enters_unlock {s t : State} (h : step s = .next t) (hs : s.phase ≠ .unlock) (ht : t.phase = .unlock) :
    s.phase = .collect ∧ ∃ idx rest, GrantedFrom { s with input := rest } idx t := by
  obtain ⟨-, rfl | ⟨ev, rest, -, hexec⟩⟩ := step_next_event h
  · exact absurd ht hs
  · obtain ⟨hrow, idx, hgrant⟩ := exec_enters_unlock (s := { s with input := rest }) hexec hs ht
    exact ⟨eq_collect_of_keyPhase_eventRow hrow, idx, rest, hgrant⟩

/-- Settles O27: the step that turns the lock on is a grant, the invariants bound `cnt` by 11 and make `acc` the checksum there,
and the arbiter's index is an entry with the identifier. -/
theorem lockTurnsOnOnlyByGrant : Obligations.LockTurnsOnOnlyByGrant := by
  intro s t hs hstep hoff hon
  obtain ⟨hp, idx, rest, hcomplete, hhit, rfl⟩ :=
    step_enters_unlock hstep ((lockOut_eq_false_iff s).mp hoff) ((lockOut_iff t).mp hon)
  have hcnt : s.cnt = 11#4 := BitVec.eq_of_toNat_eq (Nat.le_antisymm hs.cnt_le hcomplete)
  obtain ⟨⟨e, hread, hid⟩, -⟩ := lookup_eq_some_iff.mp hhit
  exact ⟨hp, hcnt, hs.acc_eq_checksumOf hp hcnt, rfl, rfl, idx, e, hread, hid, rfl⟩

/-! ## The record that ends a cycle (R187) -/

/-- The step that led to the state put a record with `sep` 1 on the port. -/
def State.separates (t : State) : Bool := t.record.any Record.sep

theorem separates_iff (t : State) : t.separates = true ↔ ∃ r, t.record = some r ∧ r.sep = true := Option.any_eq_true ..

theorem separates_of_some {t : State} {r : Record} (h : t.record = some r) : t.separates = r.sep := by
  simp [State.separates, h]

theorem separates_of_none {t : State} (h : t.record = none) : t.separates = false := by
  simp [State.separates, h]

/-- A completed frame ends the cycle unless it starts a pulse (R182-R184). -/
theorem separates_completeFrame_iff (b : Byte) (s : State) :
    (completeFrame b s).separates = true ↔ (completeFrame b s).phase = .hunt := by
  obtain ⟨-, h⟩ | ⟨i, -, -, h⟩ | ⟨-, -, h⟩ := completeFrame_cases b s <;> rw [h]
  · simp [separates_of_some (completeInvalid_record b s), Record.sep]
  · simp [separates_of_some (completeGranted_record b i s), Record.sep]
  · simp [separates_of_some (completeDenied_record b s), Record.sep]

theorem separates_charStep_iff (v : Byte) {s : State} (hp : s.phase = .collect) :
    (charStep v s).separates = true ↔ (charStep v s).phase = .hunt := by
  obtain ⟨-, h⟩ | ⟨j, -, -, h⟩ | ⟨-, -, h⟩ := charStep_cases v s <;> rw [h]
  · simp [separates_of_none (highNibble_record v s), hp]
  · simp [separates_of_none (storeIdByte_record j _ s), hp]
  · exact separates_completeFrame_iff _ _

/-- Row by row, RESET apart: those that end a cycle emit a record with `sep` 1, and no others do. -/
theorem exec_separates_iff {i : Instr} {s t : State} (h : exec i s = .next t) (hi : i ≠ .reset) (hp : i.keyPhase = s.phase) :
    t.separates = true ↔ (i.keyPhase ≠ .hunt ∧ t.phase = .hunt) ∨ (i.keyPhase = .hunt ∧ i.keyEvent = .eos) := by
  cases i with
  | reset => exact absurd rfl hi
  | huntStart | huntNoise | huntTick =>
    cases h
    simp [State.separates, Instr.keyPhase, Instr.keyEvent]
  | huntEos =>
    cases h
    simp [State.separates, Record.sep, Instr.keyPhase, Instr.keyEvent]
  | collectStopCr | collectStopLf | collectStopEtx | collectStopStx | collectEos =>
    cases h
    simp [State.separates, Record.sep, Instr.keyPhase]
  | collectDigit | collectAlpha | collectOther =>
    cases h
    simp [separates_charStep_iff _ hp.symm, Instr.keyPhase]
  | collectTick | unlockByte | unlockEos | unlockTick =>
    cases h
    simp [State.separates, ← hp, Instr.keyPhase]
  | unlockTickLast =>
    cases h
    simp [State.separates, Record.sep, Instr.keyPhase]

/-- With an event on offer the step is that event's row. -/
theorem step_next_of_offers {s t : State} {ev : EventWord} (hoffers : s.offers ev) (h : step s = .next t) :
    ∃ rest, exec (eventRow s.phase (decodeEvent ev) s.utimer) { s with input := rest } = .next t := by
  obtain ⟨-, ⟨hin, -⟩ | ⟨ev', rest, i, hin, hdec, hexec⟩⟩ := step_next_inv h <;> rw [State.offers, hin] at hoffers
  · cases hoffers
  · cases hoffers
    rw [decode_event, Except.ok.injEq] at hdec
    exact ⟨rest, hdec ▸ hexec⟩

/-- Settles O28: an event other than RESET runs a row of its own phase and event, and the rows are read one by one. -/
theorem separatorRecordEndsEveryCycle : Obligations.SeparatorRecordEndsEveryCycle := by
  intro s t ev hoffers hev hstep
  obtain ⟨rest, hexec⟩ := step_next_of_offers hoffers hstep
  obtain ⟨hphase, hevent⟩ := keyPhase_keyEvent_eventRow s.phase s.utimer hev
  have hrow : eventRow s.phase (decodeEvent ev) s.utimer ≠ .reset := fun h => hev (by rw [← hevent, h]; rfl)
  have hsep := exec_separates_iff hexec hrow hphase
  rwa [hphase, hevent, separates_iff] at hsep

end Sys2Proof.Machine
end

section
/-! PROOFS. Independence of cycles (44_cycle_controller.md R188): a simulation between two states of one chip that differ only in
registers that their phase does not read. -/

namespace Sys2Proof.Machine

/-! ## States that answer alike -/

/-- The two blocks have read as many characters of a frame, and agree on what its other characters will read: `acc`, the
identifier bytes stored so far, and `hi` when a low nibble comes next (10_state.md R21-R24). -/
def SameFrame (s₁ s₂ : State) : Prop :=
  s₁.cnt = s₂.cnt ∧ s₁.cnt.toNat ≤ 11 ∧ s₁.acc = s₂.acc ∧ (s₁.cnt.toNat % 2 = 1 → s₁.hi = s₂.hi) ∧
    (idBytes s₁.id).take (s₁.cnt.toNat / 2) = (idBytes s₂.id).take (s₁.cnt.toNat / 2)

/-- The same chip in the same phase, with the same values in the registers that the phase reads: none in HUNT, those of the frame
in COLLECT, the timer in UNLOCK. -/
def Alike (s₁ s₂ : State) : Prop :=
  s₁.cfg = s₂.cfg ∧ s₁.phase = s₂.phase ∧
    match s₁.phase with
    | .hunt => True
    | .collect => SameFrame s₁ s₂
    | .unlock => s₁.utimer = s₂.utimer

/-- Both outcomes are next states, with one output of the step (10_state.md R36), and the states are alike. -/
def AnswerAlike (o₁ o₂ : Host.Outcome State Fault Refusal) : Prop :=
  ∃ t₁ t₂, o₁ = .next t₁ ∧ o₂ = .next t₂ ∧ t₁.out = t₂.out ∧ Alike t₁ t₂

section
variable {s₁ s₂ : State}

theorem alike_of_hunt (hcfg : s₁.cfg = s₂.cfg) (h₁ : s₁.phase = .hunt) (h₂ : s₂.phase = .hunt) : Alike s₁ s₂ :=
  ⟨hcfg, h₁.trans h₂.symm, by rw [h₁]; trivial⟩

theorem alike_of_collect (hcfg : s₁.cfg = s₂.cfg) (h₁ : s₁.phase = .collect) (h₂ : s₂.phase = .collect)
    (h : SameFrame s₁ s₂) : Alike s₁ s₂ :=
  ⟨hcfg, h₁.trans h₂.symm, by rwa [h₁]⟩

theorem alike_of_unlock (hcfg : s₁.cfg = s₂.cfg) (h₁ : s₁.phase = .unlock) (h₂ : s₂.phase = .unlock)
    (h : s₁.utimer = s₂.utimer) : Alike s₁ s₂ :=
  ⟨hcfg, h₁.trans h₂.symm, by rwa [h₁]⟩

theorem Alike.cfg_eq (h : Alike s₁ s₂) : s₁.cfg = s₂.cfg := by
  obtain ⟨hcfg, -, -⟩ := h
  exact hcfg

theorem Alike.phase_eq (h : Alike s₁ s₂) : s₁.phase = s₂.phase := by
  obtain ⟨-, hphase, -⟩ := h
  exact hphase

theorem Alike.sameFrame (h : Alike s₁ s₂) (hp : s₁.phase = .collect) : SameFrame s₁ s₂ := by
  obtain ⟨-, -, hread⟩ := h
  rwa [hp] at hread

theorem Alike.utimer_eq (h : Alike s₁ s₂) (hp : s₁.phase = .unlock) : s₁.utimer = s₂.utimer := by
  obtain ⟨-, -, hread⟩ := h
  rwa [hp] at hread

/-! ## Operations that write the outputs and the offers only -/

theorem Alike.withInput (h : Alike s₁ s₂) (input : List EventWord) :
    Alike { s₁ with input := input } { s₂ with input := input } := h

theorem Alike.quiet (h : Alike s₁ s₂) : Alike s₁.quiet s₂.quiet := h

theorem Alike.decline (h : Alike s₁ s₂) : Alike s₁.decline s₂.decline := h

theorem Alike.emit (h : Alike s₁ s₂) (r : Record) : Alike (s₁.emit r) (s₂.emit r) := h

/-- Of the output only `accepted` and the record are not decoded from the phase (10_state.md R35). -/
theorem Alike.answerAlike (h : Alike s₁ s₂) (haccepted : s₁.accepted = s₂.accepted) (hrecord : s₁.record = s₂.record) :
    AnswerAlike (.next s₁) (.next s₂) := by
  refine ⟨s₁, s₂, rfl, rfl, ?_, h⟩
  simp only [State.out, State.inReady, State.lockOut, State.statusOut, haccepted, hrecord, h.phase_eq]

/-! ## The characters of a frame -/

theorem sameFrame_of_cnt_zero (hcnt₁ : s₁.cnt = 0#4) (hcnt₂ : s₂.cnt = 0#4) (hacc : s₁.acc = s₂.acc) : SameFrame s₁ s₂ := by
  refine ⟨hcnt₁.trans hcnt₂.symm, ?_, hacc, ?_, ?_⟩ <;> simp [hcnt₁]

theorem SameFrame.highNibble (h : SameFrame s₁ s₂) (heven : s₁.cnt.toNat % 2 = 0) (v : Byte) :
    SameFrame (highNibble v s₁) (highNibble v s₂) := by
  obtain ⟨hcnt, hle, hacc, -, hid⟩ := h
  have hnext : (s₁.cnt + 1#4).toNat = s₁.cnt.toNat + 1 := toNat_cnt_add_one (by omega)
  have hhalf : (s₁.cnt + 1#4).toNat / 2 = s₁.cnt.toNat / 2 := by omega
  refine ⟨congrArg (· + 1#4) hcnt, ?_, hacc, fun _ => rfl, ?_⟩
  · rw [highNibble_cnt, hnext]
    omega
  · rwa [highNibble_cnt, hhalf]

theorem SameFrame.storeIdByte (h : SameFrame s₁ s₂) {j : Fin 5} (hj : s₁.cnt.toNat = 2 * j.val + 1) (b : Byte) :
    SameFrame (storeIdByte j b s₁) (storeIdByte j b s₂) := by
  obtain ⟨hcnt, -, hacc, hhi, hid⟩ := h
  have hnext : (s₁.cnt + 1#4).toNat = s₁.cnt.toNat + 1 := toNat_cnt_add_one (by omega)
  have hhalf : s₁.cnt.toNat / 2 = j := by omega
  have hhalf' : (s₁.cnt + 1#4).toNat / 2 = j + 1 := by omega
  refine ⟨congrArg (· + 1#4) hcnt, ?_, congrArg (checksumStep · b) hacc, fun _ => hhi (by omega), ?_⟩
  · rw [storeIdByte_cnt, hnext]
    omega
  · rw [hhalf] at hid
    rw [storeIdByte_cnt, hhalf', storeIdByte_id, storeIdByte_id, take_idBytes_idSet, take_idBytes_idSet, hid]

/-- The completion step reads the byte received, `acc`, the identifier and the table (R181). -/
theorem answerAlike_completeFrame (hcfg : s₁.cfg = s₂.cfg) (hid : s₁.id = s₂.id) (hacc : s₁.acc = s₂.acc) (b : Byte) :
    AnswerAlike (.next (completeFrame b s₁)) (.next (completeFrame b s₂)) := by
  obtain ⟨hne, h₁⟩ | ⟨i, heq, hi, h₁⟩ | ⟨heq, hnone, h₁⟩ := completeFrame_cases b s₁ <;> rw [h₁]
  · rw [completeFrame_of_ne (hacc ▸ hne)]
    exact Alike.answerAlike (alike_of_hunt hcfg rfl rfl) rfl (by simp [hid, hacc])
  · rw [completeFrame_of_lookup_some (hacc ▸ heq) (hcfg ▸ hid ▸ hi)]
    exact Alike.answerAlike (alike_of_unlock hcfg rfl rfl (congrArg Config.unlockTicks hcfg)) rfl (by simp [hid, hacc])
  · rw [completeFrame_of_lookup_none (hacc ▸ heq) (hcfg ▸ hid ▸ hnone)]
    exact Alike.answerAlike (alike_of_hunt hcfg rfl rfl) rfl (by simp [hid, hacc])

/-- A position of the frame is a high nibble, the low nibble of an identifier byte, or the last (41_hex_converter.md R127). -/
theorem position_cases {n : Nat} (h : n ≤ 11) : n % 2 = 0 ∨ (∃ j : Fin 5, n = 2 * j.val + 1) ∨ n = 11 := by
  by_cases heven : n % 2 = 0
  · exact .inl heven
  by_cases hlast : n = 11
  · exact .inr (.inr hlast)
  · exact .inr (.inl ⟨⟨n / 2, by omega⟩, by simp only; omega⟩)

theorem answerAlike_charStep (hcfg : s₁.cfg = s₂.cfg) (h₁ : s₁.phase = .collect) (h₂ : s₂.phase = .collect)
    (h : SameFrame s₁ s₂) (v : Byte) : AnswerAlike (.next (charStep v s₁)) (.next (charStep v s₂)) := by
  have ⟨hcnt, hle, hacc, hhi, hid⟩ := h
  have hbyte (hodd : s₁.cnt.toNat % 2 = 1) : assemble s₁.hi v = assemble s₂.hi v := by rw [hhi hodd]
  obtain heven | ⟨j, hj⟩ | hlast := position_cases hle
  · rw [charStep_of_even v heven, charStep_of_even v (hcnt ▸ heven)]
    exact Alike.answerAlike (alike_of_collect hcfg h₁ h₂ (h.highNibble heven v)) rfl rfl
  · rw [charStep_of_idPosition v hj, charStep_of_idPosition v (hcnt ▸ hj), hbyte (by omega)]
    exact Alike.answerAlike (alike_of_collect hcfg h₁ h₂ (h.storeIdByte hj _)) rfl rfl
  · rw [charStep_of_lastPosition v hlast, charStep_of_lastPosition v (hcnt ▸ hlast), hbyte (by omega)]
    rw [hlast] at hid
    refine answerAlike_completeFrame ?cfg ?id ?acc _
    case cfg => exact hcfg
    case id => exact idBytes_injective hid
    case acc => exact hacc

/-! ## The row of every event, phase by phase -/

theorem answerAlike_reset (hcfg : s₁.cfg = s₂.cfg) : AnswerAlike (exec .reset s₁) (exec .reset s₂) :=
  Alike.answerAlike (alike_of_hunt hcfg rfl rfl) rfl rfl

theorem answerAlike_hunt (h : Alike s₁ s₂) (e : Event) :
    AnswerAlike (exec (eventRow .hunt e s₁.utimer) s₁) (exec (eventRow .hunt e s₂.utimer) s₂) := by
  have hcfg := h.cfg_eq
  cases e with
  | byte b =>
    rw [eventRow_hunt_byte, eventRow_hunt_byte]
    split
    · rw [exec_huntStart, exec_huntStart]
      exact Alike.answerAlike (alike_of_collect hcfg rfl rfl (sameFrame_of_cnt_zero rfl rfl rfl)) rfl rfl
    · exact h.quiet.answerAlike rfl rfl
  | eos => exact (h.emit _).answerAlike rfl rfl
  | tick => exact h.quiet.answerAlike rfl rfl
  | reset => exact answerAlike_reset hcfg

/-- A COLLECT byte is a stop byte in every state, or a character of one value in every state (30_encoding.md R78). -/
theorem collectByteRow_stop_or_character (b : Byte) :
    (∀ s, exec (collectByteRow b) s = .next (endIncomplete s)) ∨
    ∃ v, ∀ s, exec (collectByteRow b) s = .next (charStep v s) := by
  by_cases hstop : b ∈ stopSet
  · obtain rfl | rfl | rfl | rfl := (mem_stopSet_iff b).mp hstop <;> exact .inl fun _ => rfl
  · have hvalue : ∃ v, frameCharValue (collectByteRow b) = some v := by
      rw [collectByteRow_of_notMem hstop]
      split_ifs <;> exact ⟨_, rfl⟩
    exact .inr (hvalue.imp fun _ hv => exec_of_frameCharValue hv)

theorem answerAlike_collect (h : Alike s₁ s₂) (h₁ : s₁.phase = .collect) (h₂ : s₂.phase = .collect) (e : Event) :
    AnswerAlike (exec (eventRow .collect e s₁.utimer) s₁) (exec (eventRow .collect e s₂.utimer) s₂) := by
  have hcfg := h.cfg_eq
  have hframe := h.sameFrame h₁
  have hend : AnswerAlike (.next (endIncomplete s₁)) (.next (endIncomplete s₂)) := by
    obtain ⟨hcnt, -⟩ := hframe
    exact Alike.answerAlike (alike_of_hunt hcfg rfl rfl) rfl (by simp [hcnt])
  cases e with
  | byte b =>
    rw [eventRow_collect_byte, eventRow_collect_byte]
    obtain hrow | ⟨v, hrow⟩ := collectByteRow_stop_or_character b <;> rw [hrow, hrow]
    · exact hend
    · exact answerAlike_charStep hcfg h₁ h₂ hframe v
  | eos => exact hend
  | tick => exact h.quiet.answerAlike rfl rfl
  | reset => exact answerAlike_reset hcfg

theorem answerAlike_unlock (h : Alike s₁ s₂) (h₁ : s₁.phase = .unlock) (h₂ : s₂.phase = .unlock) (e : Event) :
    AnswerAlike (exec (eventRow .unlock e s₁.utimer) s₁) (exec (eventRow .unlock e s₂.utimer) s₂) := by
  have hcfg := h.cfg_eq
  have htimer := h.utimer_eq h₁
  cases e with
  | byte b => exact h.decline.answerAlike rfl rfl
  | eos => exact h.decline.answerAlike rfl rfl
  | tick =>
    rw [htimer, eventRow_unlock_tick]
    split
    · rw [exec_unlockTick, exec_unlockTick]
      exact Alike.answerAlike (alike_of_unlock hcfg h₁ h₂ (congrArg (· - 1) htimer)) rfl rfl
    · rw [exec_unlockTickLast, exec_unlockTickLast]
      exact Alike.answerAlike (alike_of_hunt hcfg rfl rfl) rfl rfl
  | reset => exact answerAlike_reset hcfg

theorem answerAlike_eventRow (h : Alike s₁ s₂) (e : Event) :
    AnswerAlike (exec (eventRow s₁.phase e s₁.utimer) s₁) (exec (eventRow s₂.phase e s₂.utimer) s₂) := by
  have hphase := h.phase_eq
  rw [← hphase]
  cases hp : s₁.phase with
  | hunt => exact answerAlike_hunt h e
  | collect => exact answerAlike_collect h hp (hphase ▸ hp) e
  | unlock => exact answerAlike_unlock h hp (hphase ▸ hp) e

theorem answerAlike_offer (h : Alike s₁ s₂) (hwf : s₁.cfg.wf = true) (ev : EventWord) :
    AnswerAlike (offer ev s₁) (offer ev s₂) := by
  rw [offer_eq ev hwf, offer_eq ev (h.cfg_eq ▸ hwf)]
  exact answerAlike_eventRow (h.withInput []) (decodeEvent ev)

end

/-! ## Runs -/

/-- Alike states run every sequence of events to alike states, with the same outputs. -/
theorem Alike.play {s₁ s₂ : State} (h : Alike s₁ s₂) (hwf : s₁.cfg.wf = true) (evs : List EventWord) :
    ∃ t₁ t₂ outs, play evs s₁ = .next (t₁, outs) ∧ play evs s₂ = .next (t₂, outs) ∧ Alike t₁ t₂ := by
  induction evs generalizing s₁ s₂ with
  | nil => exact ⟨s₁, s₂, [], play_nil s₁, play_nil s₂, h⟩
  | cons ev evs ih =>
    obtain ⟨u₁, u₂, hoffer₁, hoffer₂, hout, hu⟩ := answerAlike_offer h hwf ev
    have hwf' : u₁.cfg.wf = true := by
      rw [step_next_cfg hoffer₁]
      exact hwf
    obtain ⟨t₁, t₂, outs, hplay₁, hplay₂, ht⟩ := ih hu hwf'
    exact ⟨t₁, t₂, u₁.out :: outs, play_cons hoffer₁ hplay₁, hout ▸ play_cons hoffer₂ hplay₂, ht⟩

/-- Settles O26: in HUNT no register is read, so two HUNT states of one chip are alike. -/
theorem cyclesAreIndependent : Obligations.CyclesAreIndependent := by
  intro evs s₁ s₂ hwf hcfg h₁ h₂
  obtain ⟨t₁, t₂, outs, hplay₁, hplay₂, halike⟩ := (alike_of_hunt hcfg h₁ h₂).play hwf evs
  exact ⟨t₁, t₂, outs, hplay₁, hplay₂, halike.phase_eq⟩

end Sys2Proof.Machine
end

section
/-! PROOFS. The pulse sequencer (45_pulse_sequencer.md): its rows (R201-R204), that only the ticks count while a pulse runs
(R205, R206), and over clock cycles that it ends as long as ticks come (R208). -/

namespace Sys2Proof.Machine

/-! ## The rows of UNLOCK (R201-R204) -/

/-- Settles O29: above 1 the timer makes a TICK of the pulse count down, whatever its data bits. -/
theorem unlockTickCountsDown : Obligations.UnlockTickCountsDown := by
  refine ⟨fun d u hu => ?_, fun s _ _ => exec_unlockTick s⟩
  have hrow : eventRow .unlock .tick u = .unlockTick := if_pos hu
  exact hrow ▸ decode_tickKey .unlock d u

/-- Settles O30: at 1 the timer makes a TICK of the pulse the last one, whatever its data bits. -/
theorem lastUnlockTickReleasesLock : Obligations.LastUnlockTickReleasesLock :=
  ⟨fun d => decode_tickKey .unlock d 1, fun s _ _ => exec_unlockTickLast s⟩

/-- Settles O31: both rows are `decline`. -/
theorem unlockRefusesByteAndEos : Obligations.UnlockRefusesByteAndEos :=
  ⟨fun b u => ⟨decode_byteKey .unlock b u, decode_eosKey .unlock b u⟩, fun s _ =>
    ⟨fun b => exec_unlockByte b s, exec_unlockEos s⟩⟩

/-! ## One event of a pulse -/

/-- A chip that the model runs is in a pulse with `u` ticks left. -/
structure Pulsing (u : Nat) (s : State) : Prop where
  wf : s.cfg.wf = true
  phase : s.phase = .unlock
  utimer : s.utimer = u

variable {u : Nat} {s : State} {ev : EventWord}

/-- In UNLOCK the levels hold the lock, so only the record port decides. -/
theorem Pulsing.holdsLock_out (h : Pulsing u s) (hrecord : s.record = none) : holdsLock s.out = true := by
  simp [holdsLock, State.out, State.lockOut, State.statusOut, State.inReady, h.phase, hrecord]

theorem Pulsing.offer_byte (h : Pulsing u s) {b : Byte} (hev : decodeEvent ev = .byte b) :
    offer ev s = .next ({ s with input := [] } : State).decline := by
  rw [offer_eq ev h.wf, h.phase, hev, eventRow_unlock_byte, exec_unlockByte]

theorem Pulsing.offer_eos (h : Pulsing u s) (hev : decodeEvent ev = .eos) :
    offer ev s = .next ({ s with input := [] } : State).decline := by
  rw [offer_eq ev h.wf, h.phase, hev, eventRow_unlock_eos, exec_unlockEos]

theorem Pulsing.offer_tick (h : Pulsing u s) (hev : decodeEvent ev = .tick) (hu : 1 < u) :
    offer ev s = .next (countTick ({ s with input := [] } : State).quiet) := by
  rw [offer_eq ev h.wf, h.phase, h.utimer, hev, eventRow_unlock_tick, if_pos hu, exec_unlockTick]

theorem Pulsing.offer_lastTick (h : Pulsing u s) (hev : decodeEvent ev = .tick) (hu : ¬ 1 < u) :
    offer ev s = .next (endPulse (({ s with input := [] } : State).emit .unlockDone)) := by
  rw [offer_eq ev h.wf, h.phase, h.utimer, hev, eventRow_unlock_tick, if_neg hu, exec_unlockTickLast]

/-- A refused event leaves the pulse as it was (R203, R204, R206). -/
theorem Pulsing.decline (h : Pulsing u s) : Pulsing u ({ s with input := [] } : State).decline := ⟨h.wf, h.phase, h.utimer⟩

/-- A tick takes one off the timer (R201). -/
theorem Pulsing.countTick (h : Pulsing u s) : Pulsing (u - 1) (countTick ({ s with input := [] } : State).quiet) :=
  ⟨h.wf, h.phase, congrArg (· - 1) h.utimer⟩

theorem noReset_iff (ev : EventWord) : noReset ev = true ↔ decodeEvent ev ≠ .reset := decide_eq_true_iff

theorem isTick_iff (ev : EventWord) : isTick ev = true ↔ decodeEvent ev = .tick := decide_eq_true_iff

/-- An event that neither resets the block nor is the last tick holds the lock, and takes off the timer what it ticks. -/
theorem Pulsing.offer_noReset (h : Pulsing u s) (hev : noReset ev = true) (hu : isTick ev = true → 1 < u) :
    ∃ t, offer ev s = .next t ∧ holdsLock t.out = true ∧ Pulsing (u - if isTick ev = true then 1 else 0) t := by
  simp only [noReset_iff, isTick_iff] at hev hu ⊢
  cases he : decodeEvent ev with
  | byte b => exact ⟨_, h.offer_byte he, h.decline.holdsLock_out rfl, h.decline⟩
  | eos => exact ⟨_, h.offer_eos he, h.decline.holdsLock_out rfl, h.decline⟩
  | tick => exact ⟨_, h.offer_tick he (hu he), h.countTick.holdsLock_out rfl, h.countTick⟩
  | reset => exact absurd he hev

/-! ## A run of events during a pulse (R205, R206) -/

/-- With fewer ticks than the timer holds, a run without RESET leaves the pulse with the rest of its ticks. -/
theorem Pulsing.play (h : Pulsing u s) {evs : List EventWord} (hevs : evs.all noReset = true) (hu : evs.countP isTick < u) :
    ∃ t outs, play evs s = .next (t, outs) ∧ outs.all holdsLock = true ∧ Pulsing (u - evs.countP isTick) t := by
  induction evs generalizing u s with
  | nil => exact ⟨s, [], play_nil s, rfl, h⟩
  | cons ev evs ih =>
    rw [List.all_cons, Bool.and_eq_true] at hevs
    rw [List.countP_cons] at hu ⊢
    obtain ⟨hev, hevs⟩ := hevs
    have htick : isTick ev = true → 1 < u := fun htick => by
      rw [if_pos htick] at hu
      omega
    obtain ⟨s', hoffer, hout, hs'⟩ := h.offer_noReset hev htick
    obtain ⟨t, outs, hplay, houts, ht⟩ := ih hs' hevs (by omega)
    refine ⟨t, s'.out :: outs, play_cons hoffer hplay, ?_, ?_⟩
    · rw [List.all_cons, hout, houts, Bool.and_self]
    · rwa [Nat.sub_sub, Nat.add_comm] at ht

/-- Settles O33: a run takes its ticks off the timer, and nothing else of it counts. -/
theorem pulseIsHeldUntilTheLastTick : Obligations.PulseIsHeldUntilTheLastTick := by
  intro evs s hwf hp hevs hu
  obtain ⟨t, outs, hplay, houts, ht⟩ := Pulsing.play ⟨hwf, hp, rfl⟩ hevs hu
  exact ⟨t, outs, hplay, ht.phase, ht.utimer, houts⟩

/-- Settles O34: after the run one tick is left, so the TICK behind it is the last one. -/
theorem pulseEndsAtTheLastTick : Obligations.PulseEndsAtTheLastTick := by
  intro evs s hwf hp hevs hu
  obtain ⟨t, outs, hplay, houts, ht⟩ := Pulsing.play ⟨hwf, hp, rfl⟩ hevs (by omega)
  have hlast := ht.offer_lastTick (ev := 0x200#10) rfl (by omega)
  exact ⟨_, outs, play_append hplay (play_cons hlast (play_nil _)), houts, rfl, rfl⟩

/-! ## A pulse over clock cycles (R208) -/

/-- With no reset and no tick a cycle leaves the pulse as it was, whatever the byte source drives. -/
theorem Pulsing.clockEdge_idle (h : Pulsing u s) {p : Ports} (hrst : p.rst = false) (htick : p.tick = false) :
    ∃ t, clockEdge p s = .next t ∧ Pulsing u t := by
  have hnone : selectEvent s.phase p = none := by simp [h.phase, selectEvent_unlock, hrst, htick]
  exact ⟨_, clockEdge_of_select_none h.wf hnone, h.wf, h.phase, h.utimer⟩

/-- A cycle ends the pulse, or takes a tick off a timer that holds more than one, or has no tick and leaves the pulse. -/
theorem Pulsing.clockEdge_cases (h : Pulsing u s) (p : Ports) : ∃ t, clockEdge p s = .next t ∧
    (t.phase = .hunt ∨ (p.tick = true ∧ 1 < u ∧ Pulsing (u - 1) t) ∨ (p.tick = false ∧ Pulsing u t)) := by
  cases hrst : p.rst with
  | true =>
    have hedge := clockEdge_of_select (e := .reset) (selectEvent_of_rst hrst s.phase)
    rw [offer_eq _ h.wf, decodeEvent_encodeEvent, eventRow_reset, exec_reset] at hedge
    exact ⟨_, hedge, .inl rfl⟩
  | false =>
    cases htick : p.tick with
    | true =>
      have hedge := clockEdge_of_select (s := s) (p := p) (e := .tick) (by simp [h.phase, selectEvent_unlock, hrst, htick])
      by_cases hu : 1 < u
      · exact ⟨_, hedge.trans (h.offer_tick (decodeEvent_encodeEvent .tick) hu), .inr (.inl ⟨rfl, hu, h.countTick⟩)⟩
      · exact ⟨_, hedge.trans (h.offer_lastTick (decodeEvent_encodeEvent .tick) hu), .inl rfl⟩
    | false =>
      obtain ⟨t, hedge, ht⟩ := h.clockEdge_idle hrst htick
      exact ⟨t, hedge, .inr (.inr ⟨rfl, ht⟩)⟩

/-- The ticks that the time base drives in the cycles before `n`. -/
def ticksBefore (moves : Nat → HostMove) (n : Nat) : Nat := Nat.count (fun k => (moves k).ports.tick = true) n

theorem ticksBefore_succ (moves : Nat → HostMove) (n : Nat) :
    ticksBefore moves (n + 1) = ticksBefore moves n + if (moves n).ports.tick = true then 1 else 0 := Nat.count_succ ..

/-- A time base that keeps ticking drives any number of ticks. -/
theorem exists_ticksBefore_eq {moves : Nat → HostMove} (h : timeBaseKeepsTicking moves) (k : Nat) :
    ∃ n, ticksBefore moves n = k :=
  ⟨_, Nat.count_nth_of_infinite (Nat.frequently_atTop_iff_infinite.mp (Filter.frequently_atTop.mpr h)) k⟩

/-- In a pulse that never ends, the ticks so far are off the timer, and they are at most all of its ticks but the last. -/
theorem Pulsing.cycles_of_ne_hunt (h : Pulsing u s) {moves : Nat → HostMove} (hne : ∀ n, (cycles moves s n).phase ≠ .hunt)
    (n : Nat) : ticksBefore moves n ≤ u - 1 ∧ Pulsing (u - ticksBefore moves n) (cycles moves s n) := by
  induction n with
  | zero => exact ⟨Nat.zero_le _, h⟩
  | succ n ih =>
    obtain ⟨hle, hn⟩ := ih
    obtain ⟨t, hedge, hcases⟩ := hn.clockEdge_cases (moves n).ports
    have hnext := cycles_succ hedge
    rw [hnext, ticksBefore_succ]
    obtain hhunt | ⟨htick, hu, ht⟩ | ⟨htick, ht⟩ := hcases
    · exact absurd (hnext ▸ hhunt) (hne (n + 1))
    · rw [if_pos htick, ← Nat.sub_sub]
      exact ⟨by omega, ht⟩
    · simpa [htick] using And.intro hle ht

/-- While neither a tick nor a reset comes, every cycle begins in the same pulse. -/
theorem Pulsing.cycles_of_idle (h : Pulsing u s) {moves : Nat → HostMove}
    (hidle : ∀ n, (moves n).ports.tick = false ∧ (moves n).ports.rst = false) (n : Nat) : Pulsing u (cycles moves s n) := by
  induction n with
  | zero => exact h
  | succ n ih =>
    obtain ⟨htick, hrst⟩ := hidle n
    obtain ⟨t, hedge, ht⟩ := ih.clockEdge_idle hrst htick
    rwa [cycles_succ hedge]

/-- Settles O59: a pulse that never ended would bound the ticks by its timer, and the time base drives more. -/
theorem pulseEndsWhileTimeBaseTicks : Obligations.PulseEndsWhileTimeBaseTicks := by
  intro moves s hwf hp
  have hpulse : Pulsing s.utimer s := ⟨hwf, hp, rfl⟩
  refine ⟨fun hticking => ?ends, fun hidle n => ?held⟩
  case ends =>
    by_contra hnever
    obtain ⟨n, hn⟩ := exists_ticksBefore_eq hticking (s.utimer + 1)
    obtain ⟨hle, -⟩ := hpulse.cycles_of_ne_hunt (not_exists.mp hnever) n
    omega
  case held =>
    have hn := hpulse.cycles_of_idle hidle n
    exact ⟨hn.phase, hn.utimer⟩

end Sys2Proof.Machine
end

section
/-! PROOFS. The diagnostic sink (46_diagnostic_sink.md): the digits of a printed byte (R222, R223), and the text of a list of
records as their lines in order (R220), each with its line feed (R228). -/

namespace Sys2Proof.Machine

/-! ## The digits of a byte -/

theorem hexDigit_eq_getD (n : BitVec 4) : hexDigit n = "0123456789ABCDEF".toList.getD n.toNat ' ' := by
  have h : ∀ k : Fin 16, hexDigit (BitVec.ofFin k) = "0123456789ABCDEF".toList.getD k ' ' := by decide
  exact h n.toFin

theorem toNat_highNibble (b : Byte) : (b.extractLsb' 4 4).toNat = b.toNat / 16 := by
  rw [BitVec.extractLsb'_toNat, Nat.shiftRight_eq_div_pow]
  omega

theorem toNat_lowNibble (b : Byte) : (b.extractLsb' 0 4).toNat = b.toNat % 16 := by
  rw [BitVec.extractLsb'_toNat, Nat.shiftRight_zero]

/-- The digits of a byte, high before low, as the quotient and the remainder by 16 (R222, R223). -/
theorem hexByte_eq_digits (b : Byte) :
    hexByte b = String.ofList ["0123456789ABCDEF".toList.getD (b.toNat / 16) ' ',
      "0123456789ABCDEF".toList.getD (b.toNat % 16) ' '] := by
  rw [hexByte, hexDigit_eq_getD, hexDigit_eq_getD, toNat_highNibble, toNat_lowNibble]

/-- Settles O56: the equation of each record kind, with its lines written out. -/
theorem sinkLinesPerRecordKind : Obligations.SinkLinesPerRecordKind := by
  intro c t a b n idx
  refine ⟨sinkLines_startup c, sinkLines_incomplete c n, ?cksumError, ?granted, ?denied, sinkLines_unlockDone c, rfl,
    hexByte_eq_digits a⟩
  case cksumError =>
    intro hne
    rw [sinkLines_cksumError, tagLine_eq, checksumLine_error hne]
  case granted =>
    intro e he
    rw [sinkLines_granted t a a he, tagLine_eq, checksumLine_passed, authorizedLine_eq, decimal_eq]
  case denied => rw [sinkLines_denied, tagLine_eq, checksumLine_passed]

/-! ## The text of records in order -/

theorem linesText_cons (l : Text) (rest : List Text) : linesText (l :: rest) = l ++ "\n" ++ linesText rest := rfl

/-- Every line ends with one line feed (R228). -/
theorem toList_linesText (lines : List Text) :
    (linesText lines).toList = lines.flatMap fun l => l.toList ++ [Char.ofNat 0x0A] := by
  induction lines with
  | nil => rfl
  | cons l rest ih =>
    have hfeed : "\n".toList = [Char.ofNat 0x0A] := by decide
    rw [linesText_cons, String.toList_append, String.toList_append, hfeed, ih, List.flatMap_cons]

/-- The sink prints a list of records exactly when it prints the first and the rest; the text is the one after the other. -/
theorem sinkText_cons_eq_ok {c : Config} {r : Record} {rest : List Record} {x : Text} :
    sinkText c (r :: rest) = .ok x ↔
      ∃ lines text, sinkLines c r = .ok lines ∧ sinkText c rest = .ok text ∧ linesText lines ++ text = x := by
  rw [sinkText]
  cases sinkLines c r with
  | error e => simp
  | ok lines =>
    cases sinkText c rest with
    | error e => simp
    | ok text => simp

theorem sinkText_append {c : Config} {rs rs' : List Record} {x y : Text} (hx : sinkText c rs = .ok x)
    (hy : sinkText c rs' = .ok y) : sinkText c (rs ++ rs') = .ok (x ++ y) := by
  induction rs generalizing x with
  | nil =>
    obtain rfl : "" = x := Except.ok.inj hx
    rwa [List.nil_append, String.empty_append]
  | cons r rest ih =>
    obtain ⟨lines, text, hlines, htext, rfl⟩ := sinkText_cons_eq_ok.mp hx
    exact sinkText_cons_eq_ok.mpr ⟨lines, text ++ y, hlines, ih htext, String.append_assoc.symm⟩

/-- Settles O57: one record is the list of it alone, and the order is by induction on the first list. -/
theorem sinkTextFollowsRecordOrder : Obligations.SinkTextFollowsRecordOrder := by
  refine fun c => ⟨fun r lines hlines => ⟨linesText lines, ?_, toList_linesText lines⟩, fun rs rs' x y => sinkText_append⟩
  exact sinkText_cons_eq_ok.mpr ⟨lines, "", hlines, rfl, String.append_empty⟩

end Sys2Proof.Machine
end

section
/-! PROOFS. Reset (70_reset_and_hazards.md R270, R271): its row, the one record that no other row emits, and a reset at a clock
edge. -/

namespace Sys2Proof.Machine

/-! ## The row of RESET (R270) -/

/-- RESET's row is the first that the decoder tries. -/
theorem decode_of_resetKey {key : Key} (h : key &&& 0x300#12 = 0x300#12) (u : Nat) : decode key u = .ok .reset := by
  rw [decode, if_pos ((keyFits_iff _ _ _).mpr h)]

/-- Settles O1: the kind bits alone select the row, and the row overwrites every register and both outputs. -/
theorem resetClearsEveryRegisterFromAnyState : Obligations.ResetClearsEveryRegisterFromAnyState :=
  ⟨fun _ u h => decode_of_resetKey h u, exec_reset⟩

/-! ## STARTUP (R271) -/

theorem completeFrame_record_ne_startup (b : Byte) (s : State) : (completeFrame b s).record ≠ some .startup := by
  obtain ⟨-, h⟩ | ⟨i, -, -, h⟩ | ⟨-, -, h⟩ := completeFrame_cases b s <;> simp [h]

theorem charStep_record_ne_startup (v : Byte) (s : State) : (charStep v s).record ≠ some .startup := by
  obtain ⟨-, h⟩ | ⟨j, -, -, h⟩ | ⟨-, -, h⟩ := charStep_cases v s <;> rw [h]
  · simp
  · simp
  · exact completeFrame_record_ne_startup _ _

theorem exec_record_eq_startup_iff {i : Instr} {s t : State} (h : exec i s = .next t) :
    t.record = some .startup ↔ i = .reset := by
  cases i with
  | reset => cases h; simp
  | huntStart | huntNoise | huntEos | huntTick => cases h; simp
  | collectStopCr | collectStopLf | collectStopEtx | collectStopStx | collectEos | collectTick => cases h; simp
  | collectDigit | collectAlpha | collectOther => cases h; simp [charStep_record_ne_startup]
  | unlockByte | unlockEos | unlockTick | unlockTickLast => cases h; simp

theorem eventRow_eq_reset_iff (p : Phase) (e : Event) (u : Nat) : eventRow p e u = .reset ↔ e = .reset := by
  refine ⟨fun h => ?_, fun h => h ▸ eventRow_reset p u⟩
  by_contra he
  obtain ⟨-, hevent⟩ := keyPhase_keyEvent_eventRow p u he
  rw [h] at hevent
  exact he hevent.symm

/-- Settles O3: the step runs the offered event's row, RESET's is a RESET event's alone, and no other row emits STARTUP. -/
theorem startupComesOnlyFromReset : Obligations.StartupComesOnlyFromReset := by
  refine ⟨fun s t ev hoffers hstep => ?_, rfl, sinkLines_startup⟩
  obtain ⟨rest, hexec⟩ := step_next_of_offers hoffers hstep
  rw [exec_record_eq_startup_iff hexec, eventRow_eq_reset_iff]

/-! ## A reset at a clock edge (R274) -/

/-- Whatever the state, a clock edge with `rst` leads to the reset state of its chip (10_state.md R38, R40). -/
theorem clockEdge_of_rst {s : State} {p : Ports} (hwf : s.cfg.wf = true) (hrst : p.rst = true) :
    clockEdge p s = .next { State.reset with cfg := s.cfg } := by
  rw [clockEdge_eq p hwf, selectEvent_of_rst hrst]
  exact congrArg Host.Outcome.next (emit_startup_clearRegisters { s with input := [] })

end Sys2Proof.Machine
end

section
/-! PROOFS. No traps (60_exceptions.md R246, R251): every row and every step has a next state; and what the host's duties bring
(R252). -/

namespace Sys2Proof.Machine

/-! ## Totality (R246, R251) -/

/-- No row stops the machine, in any state. -/
theorem exec_total (i : Instr) (s : State) : ∃ t, exec i s = .next t := by
  cases i <;> exact ⟨_, rfl⟩

/-- Settles O49: with no offer the step holds, and with one it runs a row, since every key of a phase decodes. -/
theorem stepIsTotal : Obligations.StepIsTotal := by
  intro s hticks
  have hwf : s.cfg.wf = true := (wf_iff _).mpr hticks
  cases hin : s.input with
  | nil => exact ⟨s.hold, step_of_no_offer hwf hin⟩
  | cons ev rest =>
    rw [stepRunsTheDecodedInstruction s ev rest _ hwf hin (decode_event s.phase ev s.utimer)]
    exact exec_total _ _

/-! ## What the host's duties bring (R252) -/

theorem inReady_iff (s : State) : s.inReady = true ↔ s.phase ≠ .unlock := bne_iff_ne

theorem keepsDuty_iff (p : Ports) (s : State) :
    p.keepsDuty s = true ↔ (p.inEos = true → s.inReady = true → p.inValid = false) := by
  cases heos : p.inEos <;> cases hready : s.inReady <;> simp [Ports.keepsDuty, heos, hready]

/-- In a ready block a dutiful byte source offers no byte with its EOS, and nothing but a byte or `rst` goes before one (R38). -/
theorem selectEvent_eos_of_keepsDuty {s : State} {p : Ports} (hduty : p.keepsDuty s = true) (hrst : p.rst = false)
    (heos : p.inEos = true) (hready : s.inReady = true) : selectEvent s.phase p = some .eos := by
  have hvalid : p.inValid = false := (keepsDuty_iff p s).mp hduty heos hready
  simp [selectEvent_of_ne_unlock ((inReady_iff s).mp hready), hrst, hvalid, heos]

/-- A dutiful sink leaves a cycle without taking only when no record is shown. -/
theorem recordsTaken_eq_recordsShown {moves : Nat → HostMove} {s : State} (h : hostMovesAllowed moves s) (n : Nat) :
    recordsTaken moves s n = recordsShown moves s n := by
  induction n with
  | zero => rfl
  | succ n ih =>
    obtain ⟨-, hleft⟩ := (HostMove.allowed_iff _ _).mp (h n)
    rw [recordsTaken, recordsShown, ih]
    cases htakes : (moves n).takesRecord with
    | true => rfl
    | false => rw [hleft htakes]; rfl

/-- No clock cycle changes a build-time parameter (10_state.md R31). -/
theorem cycles_cfg (moves : Nat → HostMove) (s : State) (n : Nat) : (cycles moves s n).cfg = s.cfg := by
  induction n with
  | zero => rfl
  | succ n ih =>
    rw [cycles]
    split
    · rename_i t hedge
      exact (step_next_cfg hedge).trans ih
    · exact ih
    · exact ih

/-- Settles O60: the first two clauses cycle by cycle, and `rst` leads from any cycle to the reset state of the built chip. -/
theorem dutifulHostHasReadyEosAndRecordsTaken : Obligations.DutifulHostHasReadyEosAndRecordsTaken := by
  refine ⟨fun moves s hallowed => ⟨fun n hrst heos hready => ?eos, recordsTaken_eq_recordsShown hallowed⟩,
    fun moves k ⟨n, hrst⟩ => ⟨n + 1, ?reset⟩⟩
  case eos =>
    obtain ⟨hduty, -⟩ := (HostMove.allowed_iff _ _).mp (hallowed n)
    exact selectEvent_eos_of_keepsDuty hduty hrst heos hready
  case reset =>
    have hcfg : (cycles moves (State.powerOn k) n).cfg = Config.build := cycles_cfg moves _ n
    have hedge := clockEdge_of_rst (hcfg ▸ build_wf) hrst
    rw [hcfg] at hedge
    exact cycles_succ hedge

end Sys2Proof.Machine
end

section
/-! PROOFS. Hazards (70_reset_and_hazards.md R280, R281): a frame offered during a pulse, and one behind a partial frame. -/

namespace Sys2Proof.Machine

/-- A frame is the start byte and the hex characters of six bytes (30_encoding.md R76). -/
theorem frameEvents_eq_cons (t : TagId) (c : Byte) : frameEvents t c =
    encodeEvent (.byte startByte) :: byteEvents ((idBytes t ++ [c]).flatMap hexPair) := rfl

/-! ## A frame behind a stale partial frame (R281) -/

/-- In COLLECT a start byte is the stop byte STX: it ends the frame and opens none (40_frame_boundary.md R106, R108). -/
theorem offer_startByte_of_collect {s : State} (hwf : s.cfg.wf = true) (hp : s.phase = .collect) :
    offer (encodeEvent (.byte startByte)) s = .next (endIncomplete { s with input := [] }) := by
  rw [offer_eq _ hwf, hp, decodeEvent_encodeEvent, eventRow_collect_byte]
  exact exec_collectStopStx _

theorem hexCharByte_ne_startByte (n : BitVec 4) : hexCharByte n ≠ startByte := by
  have h : ∀ k : Fin 16, hexCharByte (BitVec.ofFin k) ≠ startByte := by decide
  exact h n.toFin

theorem opensNoFrame_byte {b : Byte} (h : b ≠ startByte) : opensNoFrame (encodeEvent (.byte b)) = true := by
  simp [opensNoFrame_iff, h]

/-- The characters of a frame hold no start byte. -/
theorem all_opensNoFrame_hexPairs (bs : List Byte) : (byteEvents (bs.flatMap hexPair)).all opensNoFrame = true := by
  simp [byteEvents, hexPair, opensNoFrame_byte, hexCharByte_ne_startByte]

theorem countP_isEos_byteEvents (bs : List Byte) : (byteEvents bs).countP isEos = 0 := by
  simp [byteEvents, isEos]

theorem recordsOf_cons_of_some {s : State} {r : Record} (h : s.record = some r) (outs : List StepOut) :
    recordsOf (s.out :: outs) = r :: recordsOf outs := List.filterMap_cons_some h

/-- Settles O12: the start byte ends the stale frame, and the rest of the frame is noise in HUNT (R112). -/
theorem frameAfterStaleFrameIsLost : Obligations.FrameAfterStaleFrameIsLost := by
  intro s t c hwf hp
  have hstart := offer_startByte_of_collect hwf hp
  obtain ⟨s', outs, hplay, hphase, -, -, hid, hacc, -, -, hrecords⟩ := noFrameWithoutStartByte
    (byteEvents ((idBytes t ++ [c]).flatMap hexPair)) (endIncomplete { s with input := [] }) hwf rfl
    (all_opensNoFrame_hexPairs _)
  rw [countP_isEos_byteEvents, List.replicate_zero] at hrecords
  refine ⟨s', _, frameEvents_eq_cons t c ▸ play_cons hstart hplay, hphase, hid, hacc, ?_⟩
  rw [recordsOf_cons_of_some (endIncomplete_record _), hrecords]

/-! ## A frame during a pulse (R280) -/

/-- The output of a step that refuses a byte (45_pulse_sequencer.md R203). -/
def refusedOut : StepOut := ⟨some false, none, false, true, true⟩

theorem Pulsing.decline_out {u : Nat} {s : State} (h : Pulsing u s) :
    ({ s with input := [] } : State).decline.out = refusedOut := by
  simp [State.out, State.inReady, State.lockOut, State.statusOut, h.phase, refusedOut]

/-- All bytes offered during a pulse are refused; the first empties the offers, and then every refusal finds what it leaves. -/
theorem Pulsing.play_bytes {u : Nat} {s : State} (h : Pulsing u s) (b : Byte) (bs : List Byte) :
    Machine.play (byteEvents (b :: bs)) s =
      .next (({ s with input := [] } : State).decline, List.replicate (bs.length + 1) refusedOut) := by
  have hfirst := h.offer_byte (decodeEvent_encodeEvent (.byte b))
  rw [List.replicate_succ, ← h.decline_out]
  induction bs generalizing b s with
  | nil => exact play_cons hfirst (play_nil _)
  | cons b' bs ih =>
    have hnext := h.decline.offer_byte (decodeEvent_encodeEvent (.byte b'))
    exact play_cons hfirst (ih h.decline b' hnext)

/-- Settles O35: a frame is a start byte with more bytes behind it. -/
theorem frameDuringPulseIsLost : Obligations.FrameDuringPulseIsLost := by
  intro t c s hwf hp
  exact Pulsing.play_bytes ⟨hwf, hp, rfl⟩ startByte ((idBytes t).flatMap hexPair ++ hexPair c)

end Sys2Proof.Machine
end
